-- ==== Sys2Proof/Word.lean ====
section
/-! DEFINITION. The word types of the PCU: bytes, halfwords, 32-bit words, 48-bit command words
(00_scope.md R7, R9; 30_encoding.md R53). -/

namespace Sys2Proof

/-- An 8-bit value (R7): a wire byte, an accumulator, a byte operand. -/
abbrev Byte := BitVec 8

/-- A 16-bit value (R7): a checksum, a data length, an object type, an index operand. -/
abbrev Half := BitVec 16

/-- A 32-bit value (R7): an address, an object id, `imm`, the response data. -/
abbrev Word := BitVec 32

/-- A 48-bit command word `op[47:40] sub[39:32] imm[31:0]` (R53). -/
abbrev CmdWord := BitVec 48

/-- A byte sequence (R9): index 0 is the first byte on the wire. -/
abbrev Bytes := List Byte

end Sys2Proof
end

