-- ==== Sys2Proof/Syntax.lean ====
section
/-! DEFINITION. The 26 commands of the PCU (30_encoding.md R62), one constructor per row of
spec/opcode_table.json, with the operands R55 to R57 and R61 give each format. -/

namespace Sys2Proof

/-- A command (R11: this spec's "instruction"). Operands have exactly the width the format gives them (R57). -/
inductive Instr where
  /-- NOP (R127). -/
  | nop
  /-- SRST (R128). -/
  | srst
  /-- GET reg (R129): `reg` is a register number, assigned or not (R26). -/
  | get (reg : BitVec 8)
  /-- SET reg, value (R130). -/
  | set (reg : BitVec 8) (value : Word)
  /-- CSINIT (R81). -/
  | csinit
  /-- CSADD v (R82). -/
  | csadd (v : Byte)
  /-- CSRD (R83). -/
  | csrd
  /-- TXCLR (R86). -/
  | txclr
  /-- BLDRD (R87). -/
  | bldrd
  /-- BLDWR (R88). -/
  | bldwr
  /-- TXRAW i (R90). -/
  | txraw (i : Half)
  /-- RXRST (R93). -/
  | rxrst
  /-- RXB v (R94). -/
  | rxb (v : Byte)
  /-- RXDEC.fmt.rd / RXDEC.fmt.wr (R100): `rd` is `sub[4]`, `fmt` is `sub[3:0]`. -/
  | rxdec (rd : Bool) (fmt : BitVec 4)
  /-- RXERR (R101). -/
  | rxerr
  /-- RXRAW i (R103). -/
  | rxraw (i : Half)
  /-- VENC.fmt value (R107). -/
  | venc (fmt : BitVec 4) (value : Word)
  /-- VDEC.fmt bytes (R109). -/
  | vdec (fmt : BitVec 4) (value : Word)
  /-- MIADD ref, id (R113): `id` is `imm[23:16]`, `ref` is `imm[15:0]`. -/
  | miadd (id : Byte) (ref : Half)
  /-- ASMCLS id (R115). -/
  | asmcls (id : Byte)
  /-- BSFLG (R119). -/
  | bsflg
  /-- BSTIME (R120). -/
  | bstime
  /-- BSCNT (R121). -/
  | bscnt
  /-- BSREF i (R122). -/
  | bsref (i : Half)
  /-- BSAGG i (R123). -/
  | bsagg (i : Half)
  /-- BSVAL i (R124). -/
  | bsval (i : Half)
  deriving DecidableEq, Repr

end Sys2Proof
end

