-- ==== Sys2Proof/Decode.lean ====
section
/-! DEFINITION. The decoder and the encoder of the 48-bit command word (30_encoding.md R53 to R58, R61, R62, R64), and the
opcode map of R62 as data. -/

namespace Sys2Proof

/-- Why a word does not decode (R64). Both are reported alike, as ERR_ILL. -/
inductive DecodeError where
  /-- R64 (a): `op` is not one of the 26 values of R62. -/
  | unknownOpcode (op : BitVec 8)
  /-- R64 (b), R58: a "must be 0" bit of the command's format is 1. -/
  | mustBeZero (op : BitVec 8)
  deriving DecidableEq, Repr

/-- `cw[47:40]` (R53). -/
def opField (cw : CmdWord) : BitVec 8 := cw.extractLsb' 40 8

/-- `cw[39:32]` (R53). -/
def subField (cw : CmdWord) : BitVec 8 := cw.extractLsb' 32 8

/-- `cw[31:0]` (R53). -/
def immField (cw : CmdWord) : Word := cw.extractLsb' 0 32

/-- The word with these three fields: `op << 40 | sub << 32 | imm` (R53, R78). -/
def cmdWord (op sub : BitVec 8) (imm : Word) : CmdWord := op ++ sub ++ imm

/-- A command whose "must be 0" bits are checked (R58). -/
def checked (op : BitVec 8) (zeros : Bool) (i : Instr) : Except DecodeError Instr :=
  if zeros then .ok i else .error (.mustBeZero op)

/-- Format Z (R57): `sub` and `imm` must be 0. -/
def formatZ (cw : CmdWord) (i : Instr) : Except DecodeError Instr :=
  checked (opField cw) (subField cw == 0 && immField cw == 0) i

/-- Format I8 (R57): `sub` and `imm[31:8]` must be 0, `imm[7:0]` is the byte operand. -/
def formatI8 (cw : CmdWord) (f : Byte → Instr) : Except DecodeError Instr :=
  checked (opField cw) (subField cw == 0 && (immField cw).extractLsb' 8 24 == 0) (f ((immField cw).extractLsb' 0 8))

/-- Format I16 (R57): `sub` and `imm[31:16]` must be 0, `imm[15:0]` is the index operand. -/
def formatI16 (cw : CmdWord) (f : Half → Instr) : Except DecodeError Instr :=
  checked (opField cw) (subField cw == 0 && (immField cw).extractLsb' 16 16 == 0) (f ((immField cw).extractLsb' 0 16))

/-- Format R (R57): `sub` is the register number, `imm` must be 0. -/
def formatR (cw : CmdWord) (f : BitVec 8 → Instr) : Except DecodeError Instr :=
  checked (opField cw) (immField cw == 0) (f (subField cw))

/-- Format RI (R57): `sub` is the register number, `imm` the value. -/
def formatRI (cw : CmdWord) (f : BitVec 8 → Word → Instr) : Except DecodeError Instr :=
  .ok (f (subField cw) (immField cw))

/-- Format F (R57): `sub[3:0]` is the tag, `sub[4]` is `rd`, `sub[7:5]` and `imm` must be 0. -/
def formatF (cw : CmdWord) (f : Bool → BitVec 4 → Instr) : Except DecodeError Instr :=
  checked (opField cw) ((subField cw).extractLsb' 5 3 == 0 && immField cw == 0)
    (f ((subField cw).getLsbD 4) ((subField cw).extractLsb' 0 4))

/-- Format FI (R57): `sub[3:0]` is the tag, `sub[7:4]` must be 0, `imm` is the value. -/
def formatFI (cw : CmdWord) (f : BitVec 4 → Word → Instr) : Except DecodeError Instr :=
  checked (opField cw) ((subField cw).extractLsb' 4 4 == 0) (f ((subField cw).extractLsb' 0 4) (immField cw))

/-- Format M (R57): `sub` and `imm[31:24]` must be 0, `imm[23:16]` is the assembly id, `imm[15:0]` the reference. -/
def formatM (cw : CmdWord) (f : Byte → Half → Instr) : Except DecodeError Instr :=
  checked (opField cw) (subField cw == 0 && (immField cw).extractLsb' 24 8 == 0)
    (f ((immField cw).extractLsb' 16 8) ((immField cw).extractLsb' 0 16))

/-- The decoder: `op` is matched against the opcode map (R54, R62), then the format's fields are read (R57). -/
def decode (cw : CmdWord) : Except DecodeError Instr :=
  let op := opField cw
  if op = 0x00#8 then formatZ cw .nop
  else if op = 0x01#8 then formatZ cw .srst
  else if op = 0x02#8 then formatR cw .get
  else if op = 0x03#8 then formatRI cw .set
  else if op = 0x10#8 then formatZ cw .csinit
  else if op = 0x11#8 then formatI8 cw .csadd
  else if op = 0x12#8 then formatZ cw .csrd
  else if op = 0x20#8 then formatZ cw .txclr
  else if op = 0x21#8 then formatZ cw .bldrd
  else if op = 0x22#8 then formatZ cw .bldwr
  else if op = 0x23#8 then formatI16 cw .txraw
  else if op = 0x30#8 then formatZ cw .rxrst
  else if op = 0x31#8 then formatI8 cw .rxb
  else if op = 0x32#8 then formatF cw .rxdec
  else if op = 0x33#8 then formatZ cw .rxerr
  else if op = 0x34#8 then formatI16 cw .rxraw
  else if op = 0x40#8 then formatFI cw .venc
  else if op = 0x41#8 then formatFI cw .vdec
  else if op = 0x50#8 then formatM cw .miadd
  else if op = 0x51#8 then formatI8 cw .asmcls
  else if op = 0x60#8 then formatZ cw .bsflg
  else if op = 0x61#8 then formatZ cw .bstime
  else if op = 0x62#8 then formatZ cw .bscnt
  else if op = 0x63#8 then formatI16 cw .bsref
  else if op = 0x64#8 then formatI16 cw .bsagg
  else if op = 0x65#8 then formatI16 cw .bsval
  else .error (.unknownOpcode op)

/-- The opcode of a command (R62, column "op"). -/
def opcode : Instr → BitVec 8
  | .nop => 0x00#8
  | .srst => 0x01#8
  | .get _ => 0x02#8
  | .set _ _ => 0x03#8
  | .csinit => 0x10#8
  | .csadd _ => 0x11#8
  | .csrd => 0x12#8
  | .txclr => 0x20#8
  | .bldrd => 0x21#8
  | .bldwr => 0x22#8
  | .txraw _ => 0x23#8
  | .rxrst => 0x30#8
  | .rxb _ => 0x31#8
  | .rxdec _ _ => 0x32#8
  | .rxerr => 0x33#8
  | .rxraw _ => 0x34#8
  | .venc _ _ => 0x40#8
  | .vdec _ _ => 0x41#8
  | .miadd _ _ => 0x50#8
  | .asmcls _ => 0x51#8
  | .bsflg => 0x60#8
  | .bstime => 0x61#8
  | .bscnt => 0x62#8
  | .bsref _ => 0x63#8
  | .bsagg _ => 0x64#8
  | .bsval _ => 0x65#8

/-- The `sub` field of a command (R55, R57). -/
def subOf : Instr → BitVec 8
  | .get reg | .set reg _ => reg
  | .rxdec rd fmt => 0#3 ++ BitVec.ofBool rd ++ fmt
  | .venc fmt _ | .vdec fmt _ => 0#4 ++ fmt
  | .nop | .srst | .csinit | .csadd _ | .csrd | .txclr | .bldrd | .bldwr | .txraw _ | .rxrst | .rxb _
  | .rxerr | .rxraw _ | .miadd _ _ | .asmcls _ | .bsflg | .bstime | .bscnt | .bsref _ | .bsagg _ | .bsval _ => 0#8

/-- The `imm` field of a command (R56, R57, R61). -/
def immOf : Instr → Word
  | .set _ value | .venc _ value | .vdec _ value => value
  | .csadd v | .rxb v | .asmcls v => 0#24 ++ v
  | .txraw i | .rxraw i | .bsref i | .bsagg i | .bsval i => 0#16 ++ i
  | .miadd id ref => 0#8 ++ id ++ ref
  | .nop | .srst | .get _ | .csinit | .csrd | .txclr | .bldrd | .bldwr | .rxrst | .rxdec _ _ | .rxerr
  | .bsflg | .bstime | .bscnt => 0#32

/-- The encoder: the command word of a command (R53, R57, R62). -/
def encode (i : Instr) : CmdWord := cmdWord (opcode i) (subOf i) (immOf i)

/-- One row of the opcode map: its mnemonic, match and mask. -/
structure OpRow where
  mnemonic : String
  pattern : CmdWord
  mask : CmdWord
  deriving DecidableEq, Repr

/-- "a word `cw` selects the row iff `cw & mask = match`" (R62). -/
def OpRow.selects (r : OpRow) (cw : CmdWord) : Bool := cw &&& r.mask == r.pattern

/-- The opcode map of R62, its columns "mnemonic", "match" and "mask" transcribed whole. -/
def opcodeMap : List OpRow :=
  [⟨"NOP", 0x000000000000#48, 0xFFFFFFFFFFFF#48⟩,
   ⟨"SRST", 0x010000000000#48, 0xFFFFFFFFFFFF#48⟩,
   ⟨"GET", 0x020000000000#48, 0xFF00FFFFFFFF#48⟩,
   ⟨"SET", 0x030000000000#48, 0xFF0000000000#48⟩,
   ⟨"CSINIT", 0x100000000000#48, 0xFFFFFFFFFFFF#48⟩,
   ⟨"CSADD", 0x110000000000#48, 0xFFFFFFFFFF00#48⟩,
   ⟨"CSRD", 0x120000000000#48, 0xFFFFFFFFFFFF#48⟩,
   ⟨"TXCLR", 0x200000000000#48, 0xFFFFFFFFFFFF#48⟩,
   ⟨"BLDRD", 0x210000000000#48, 0xFFFFFFFFFFFF#48⟩,
   ⟨"BLDWR", 0x220000000000#48, 0xFFFFFFFFFFFF#48⟩,
   ⟨"TXRAW", 0x230000000000#48, 0xFFFFFFFF0000#48⟩,
   ⟨"RXRST", 0x300000000000#48, 0xFFFFFFFFFFFF#48⟩,
   ⟨"RXB", 0x310000000000#48, 0xFFFFFFFFFF00#48⟩] ++
  [⟨"RXDEC", 0x320000000000#48, 0xFFE0FFFFFFFF#48⟩,
   ⟨"RXERR", 0x330000000000#48, 0xFFFFFFFFFFFF#48⟩,
   ⟨"RXRAW", 0x340000000000#48, 0xFFFFFFFF0000#48⟩,
   ⟨"VENC", 0x400000000000#48, 0xFFF000000000#48⟩,
   ⟨"VDEC", 0x410000000000#48, 0xFFF000000000#48⟩,
   ⟨"MIADD", 0x500000000000#48, 0xFFFFFF000000#48⟩,
   ⟨"ASMCLS", 0x510000000000#48, 0xFFFFFFFFFF00#48⟩,
   ⟨"BSFLG", 0x600000000000#48, 0xFFFFFFFFFFFF#48⟩,
   ⟨"BSTIME", 0x610000000000#48, 0xFFFFFFFFFFFF#48⟩,
   ⟨"BSCNT", 0x620000000000#48, 0xFFFFFFFFFFFF#48⟩,
   ⟨"BSREF", 0x630000000000#48, 0xFFFFFFFF0000#48⟩,
   ⟨"BSAGG", 0x640000000000#48, 0xFFFFFFFF0000#48⟩,
   ⟨"BSVAL", 0x650000000000#48, 0xFFFFFFFF0000#48⟩]

/-- The mnemonic of a command, as the opcode map spells it. -/
def mnemonic : Instr → String
  | .nop => "NOP" | .srst => "SRST" | .get _ => "GET" | .set _ _ => "SET"
  | .csinit => "CSINIT" | .csadd _ => "CSADD" | .csrd => "CSRD"
  | .txclr => "TXCLR" | .bldrd => "BLDRD" | .bldwr => "BLDWR" | .txraw _ => "TXRAW"
  | .rxrst => "RXRST" | .rxb _ => "RXB" | .rxdec _ _ => "RXDEC" | .rxerr => "RXERR" | .rxraw _ => "RXRAW"
  | .venc _ _ => "VENC" | .vdec _ _ => "VDEC" | .miadd _ _ => "MIADD" | .asmcls _ => "ASMCLS"
  | .bsflg => "BSFLG" | .bstime => "BSTIME" | .bscnt => "BSCNT"
  | .bsref _ => "BSREF" | .bsagg _ => "BSAGG" | .bsval _ => "BSVAL"

/-- What the decoder reads from the command word whose bits are `w`, numbered as the opcode table numbers them: bit 0
is `cw[0]`, bit 47 is `cw[47]`; a command is one 48-bit word (R53), and bits at or above `nbits` are 0. -/
def decodeTableWord (nbits w : Nat) : Option Instr :=
  match decode (BitVec.ofNat 48 (w % 2 ^ nbits)) with
  | .ok i => some i
  | .error _ => none

end Sys2Proof
end

