-- ==== Sys2Proof/Config.lean ====
section
/-! DEFINITION. The implementation parameter and the fixed constants of 00_scope.md R6. -/

namespace Sys2Proof.Config

/-- `MAXPAY`'s default (R6). The parameter itself is the field `maxpay` of the state (log entry 1). -/
def maxPayDefault : Nat := 256

/-- The smallest legal `MAXPAY` (R6). -/
def maxPayMin : Nat := 8

/-- The largest legal `MAXPAY`, 0x7FFF − 10 (R6). -/
def maxPayMax : Nat := 32757

/-- `HDRLEN`: bytes from the start marker through the header checksum (R6). -/
def hdrLen : Nat := 14

/-- `FIXDATA`: the fixed-size portion of the data section (R6). -/
def fixData : Nat := 10

/-- `PAYOFF`: offset of the first payload byte (R6). -/
def payOff : Nat := 24

/-- `MINFRAME`: length of a frame with no payload (R6). -/
def minFrame : Nat := 26

/-- `MAXFRAME`: the longest frame the PCU builds or accepts (R6); the capacity of RAW and TXBUF (R35). -/
def maxFrame (maxpay : Nat) : Nat := minFrame + maxpay

/-- `BSCTXLEN`: bytes of the byte-stream context block (R6). -/
def bsCtxLen : Nat := 8

/-- `BSRECLEN`: bytes of one byte-stream record (R6, 90_conflicts.md C1). -/
def bsRecLen : Nat := 7

/-- `MIGRPLEN`: bytes of one multi-info group (R6). -/
def miGrpLen : Nat := 3

/-- `SOF`: the start marker (R6). -/
def sof : Byte := 0xAA#8

/-- `CS_A_INIT`: the start value of accumulator A (R6). -/
def csAInit : Byte := 0xFF#8

/-- `CS_B_INIT`: the start value of accumulator B (R6). -/
def csBInit : Byte := 0x00#8

end Sys2Proof.Config
end

