-- ==== Sys2Proof/Machine/State.lean ====
section
/-! DEFINITION. The state of the PCU (10_state.md R13), the reset state (R34), and the ways a step can stop. -/

namespace Sys2Proof.Machine

/-- RXST, the parser state (R23). The reserved value 7 is "never taken" (93_implementation_defined.md U12). -/
inductive RxState where
  /-- 0 S_SOF: nothing consumed. -/
  | sof
  /-- 1 S_HDR: inside the header section. -/
  | hdr
  /-- 2 S_HCK: inside the header checksum. -/
  | hck
  /-- 3 S_DATA: inside the data section. -/
  | data
  /-- 4 S_DCK: inside the data checksum. -/
  | dck
  /-- 5 S_DONE: a whole frame is held. -/
  | done
  /-- 6 S_FAULT: the declared data length is unacceptable. -/
  | fault
  deriving DecidableEq, Repr

/-- TXPK, the kind of what TXPAY holds (R20). -/
inductive PayKind where
  /-- 0 PK_EMPTY. -/
  | empty
  /-- 1 PK_VALUE: one encoded value. -/
  | value
  /-- 2 PK_MINFO: multi-info groups. -/
  | minfo
  /-- 3 PK_ABORT: a MIADD failed. -/
  | abort
  deriving DecidableEq, Repr

/-- PTAG, which variant PVAL holds (R28). The reserved values 6, 7 are "never taken" (U12). -/
inductive ValTag where
  /-- 0 T_NONE. -/
  | none
  /-- 1 T_ABSENT. -/
  | absent
  /-- 2 T_BOOL. -/
  | bool
  /-- 3 T_INT. -/
  | int
  /-- 4 T_FLOAT. -/
  | float
  /-- 5 T_BSTREAM. -/
  | bstream
  deriving DecidableEq, Repr

/-- The nine fault codes of 60_exceptions.md R134 (a command that ends with one is a NEXT state of the model). -/
inductive FaultCode where
  /-- 0x01 ERR_ILL. -/
  | ill
  /-- 0x02 ERR_FMT. -/
  | fmt
  /-- 0x03 ERR_RANGE. -/
  | range
  /-- 0x04 ERR_VALUE. -/
  | value
  /-- 0x05 ERR_STATE. -/
  | state
  /-- 0x06 ERR_LEN. -/
  | len
  /-- 0x07 ERR_SHORT. -/
  | short
  /-- 0x08 ERR_ASM. -/
  | asm
  /-- 0x09 ERR_SFLAGS. -/
  | sflags
  deriving DecidableEq, Repr

/-- The response to a command (R59). -/
structure Response where
  /-- 0x00 on success, otherwise the fault code. -/
  status : Byte
  /-- The result, 0 on a fault. -/
  data : Word
  deriving DecidableEq, Repr

/-- The state: the elements of R13, then the parameter MAXPAY (R6, log entry 1) and the host's two ends of the
command interface (R5, log entries 2 and 3). -/
structure State where
  /-- A, first checksum accumulator (R15). -/
  a : Byte
  /-- B, second checksum accumulator (R16). -/
  b : Byte
  /-- TSRC, source address of the next request (R18). -/
  tsrc : Word
  /-- TDST, destination address of the next request (R18). -/
  tdst : Word
  /-- TOTYPE, object type of the next request (R18). -/
  totype : Half
  /-- TOID, object id of the next request (R18). -/
  toid : Word
  /-- TPID, property id of the next request (R18). -/
  tpid : Half
  /-- TXPAY, the payload being assembled (R19). -/
  txpay : Bytes
  /-- TXPK, the kind of that payload (R20). -/
  txpk : PayKind
  /-- TXBUF, the last frame built (R21). -/
  txbuf : Bytes
  /-- RAW, the bytes of the frame being parsed (R22). -/
  raw : Bytes
  /-- RXST, the parser state (R23). -/
  rxst : RxState
  /-- PVAL, the decoded property value (R28). -/
  pval : Word
  /-- PTAG, which variant PVAL holds (R28). -/
  ptag : ValTag
  /-- FLT, the sticky record of faults (R29). -/
  flt : BitVec 16
  /-- MAXPAY, the parameter of the unit (R6): no command writes it. DESIGN CHOICE that it stands here, unsafe for one run from
  reset of a unit built otherwise (log entry 1). -/
  maxpay : Nat
  /-- The command words the host has still to present, in order (R5, R11). DESIGN CHOICE, unsafe for claims about what a host
  presents (log entry 2). -/
  cmds : List CmdWord
  /-- The response to the last command (R59); `none` before the first. DESIGN CHOICE, unsafe before the first response (log
  entry 3). -/
  rsp : Option Response
  deriving DecidableEq, Repr

/-- What stops the machine. No fault of the spec does: a faulting command is a next state (60_exceptions.md R133, R139).
These two mark the points where the spec's own primitives have no value; no state that satisfies R33 meets them. -/
inductive Fault where
  /-- A read or a write that lies outside a buffer (R10: MemRead and MemWrite "are defined only when the range lies inside"),
  or a payload length below 0. Raised by GET of a frame field, RXB, RXDEC, RXERR, the BS commands, VENC and the builds, in
  states that break R33 only. Safe: the model stops where the spec defines nothing. -/
  | outsideBuffer
  /-- RXB in a state and at an offset for which R95 has no row. Raised in states that break R33 only. Safe. -/
  | noTransition
  deriving DecidableEq, Repr

/-- Why a step has no meaning. -/
inductive Refusal where
  /-- An instruction the model gives no meaning yet. Raised by no arm of `exec`: all 26 commands have their meaning. Safe. -/
  | notModelled (mnemonic : String)
  deriving DecidableEq, Repr

/-- The outcome of a command or a step. -/
abbrev Result := Host.Outcome State Fault Refusal

/-- The machine right after reset: the table of R34, the default parameter (R6), nothing presented and nothing answered. -/
def State.reset : State where
  a := Config.csAInit
  b := Config.csBInit
  tsrc := 0#32
  tdst := 0#32
  totype := 0#16
  toid := 0#32
  tpid := 0#16
  txpay := []
  txpk := .empty
  txbuf := []
  raw := []
  rxst := .sof
  pval := 0#32
  ptag := .none
  flt := 0#16
  maxpay := Config.maxPayDefault
  cmds := []
  rsp := none

end Sys2Proof.Machine
end

