-- ==== Sys2Proof/Machine/Operands.lean ====
section
/-! DEFINITION. Operand forms and codes: byte order (00_scope.md R9; 20_memory.md R38 to R43), format tags and widths
(30_encoding.md R63, R69), assembly ids (R71), and the numeric codes of the closed enumerations (R20, R23, R28, R134). -/

namespace Sys2Proof.Machine

/-- `bytes_le(v, n)` (R9): n bytes, least significant first. -/
def bytesLe {w : Nat} (v : BitVec w) (n : Nat) : Bytes :=
  (List.range n).map fun k => v.extractLsb' (8 * k) 8

/-- `bytes_be16(v)` (R9). -/
def bytesBe16 (v : Half) : Bytes := [v.extractLsb' 8 8, v.extractLsb' 0 8]

/-- `le16(s, i)` (R9); `none` where a byte lies outside `s`. -/
def le16 (s : Bytes) (i : Nat) : Option Half :=
  match s[i]?, s[i + 1]? with
  | some b0, some b1 => some (b1 ++ b0)
  | _, _ => none

/-- `le32(s, i)` (R9); `none` where a byte lies outside `s`. -/
def le32 (s : Bytes) (i : Nat) : Option Word :=
  match s[i]?, s[i + 1]?, s[i + 2]?, s[i + 3]? with
  | some b0, some b1, some b2, some b3 => some (b3 ++ b2 ++ b1 ++ b0)
  | _, _, _, _ => none

/-- `be16(s, i)` (R9); `none` where a byte lies outside `s`. -/
def be16 (s : Bytes) (i : Nat) : Option Half :=
  match s[i]?, s[i + 1]? with
  | some b0, some b1 => some (b0 ++ b1)
  | _, _ => none

/-- `sext_16(v)` in a 32-bit place (R8). -/
def sext16 (v : Half) : Word := v.signExtend 32

/-- Zero extension into the 32-bit `data` field (R8, R27). -/
def zext {w : Nat} (v : BitVec w) : Word := v.setWidth 32

/-- A non-negative integer in the 32-bit `data` field. -/
def count (n : Nat) : Word := BitVec.ofNat 32 n

/-- `−32768 ≤ signed32(imm) ≤ 32767` (R27, R106). -/
def fitsSigned16 (imm : Word) : Bool := decide (-32768 ≤ imm.toInt) && decide (imm.toInt ≤ 32767)

/-- `imm[15:0]` (R8). -/
def low16 (imm : Word) : Half := imm.extractLsb' 0 16

/-- The format tags of R63. -/
inductive FormatTag where
  | bool | shortEnum | longEnum | int32 | float | byteStream
  | string | dynamic | error | format | enum
  | unassigned
  deriving DecidableEq, Repr

/-- The tag a 4-bit code stands for (R63). -/
def FormatTag.ofCode (code : BitVec 4) : FormatTag :=
  match code.toNat with
  | 0 => .bool
  | 1 => .shortEnum
  | 2 => .longEnum
  | 3 => .int32
  | 4 => .float
  | 5 => .byteStream
  | 6 => .string
  | 7 => .dynamic
  | 8 => .error
  | 9 => .format
  | 10 => .enum
  | _ => .unassigned

/-- The five fixed-width codecs of the VMX (R105). -/
inductive Codec where
  | bool | shortEnum | longEnum | int32 | float
  deriving DecidableEq, Repr

/-- The fixed-width codec of a tag: tags 0 to 4 have one (R63, R105). -/
def FormatTag.codec : FormatTag → Option Codec
  | .bool => some .bool
  | .shortEnum => some .shortEnum
  | .longEnum => some .longEnum
  | .int32 => some .int32
  | .float => some .float
  | .byteStream | .string | .dynamic | .error | .format | .enum | .unassigned => none

/-- The tags RXDEC decodes: `fmt ≤ 5` (R100, R63). -/
def FormatTag.decodable : FormatTag → Bool
  | .bool | .shortEnum | .longEnum | .int32 | .float | .byteStream => true
  | .string | .dynamic | .error | .format | .enum | .unassigned => false

/-- The encode width in bytes (R69, R105). -/
def Codec.width : Codec → Nat
  | .bool => 1
  | .shortEnum => 2
  | .longEnum | .int32 | .float => 4

/-- The tag of a decoded value (R99). -/
def Codec.valTag : Codec → ValTag
  | .bool => .bool
  | .shortEnum | .longEnum | .int32 => .int
  | .float => .float

/-- The direction of a parsed frame (R97). -/
inductive Direction where
  | request | response
  deriving DecidableEq, Repr

/-- The direction its service flags give: 0x00 a request, 0x02 and 0x03 a response, any other value reserved (R97). -/
def Direction.ofFlags (sflags : Byte) : Option Direction :=
  if sflags = 0x00#8 then some .request
  else if sflags = 0x02#8 ∨ sflags = 0x03#8 then some .response
  else none

/-- The width-selection rule `W(dir, fmt, rd)` for the fixed-width formats (R98). -/
def frameWidth (dir : Direction) (c : Codec) (rd : Bool) : Nat :=
  match c, dir with
  | .bool, _ => 1
  | .shortEnum, _ => 2
  | .float, _ => 4
  | .longEnum, .request | .int32, .request => 4
  | .longEnum, .response | .int32, .response => if rd then 4 else 2

/-- The class of an assembly id (R71). -/
inductive AsmClass where
  | master | uid | average | sum | unknown
  deriving DecidableEq, Repr

/-- The 3-bit class code (R71). -/
def AsmClass.code : AsmClass → BitVec 3
  | .master => 0#3
  | .uid => 1#3
  | .average => 2#3
  | .sum => 3#3
  | .unknown => 7#3

/-- `cls(id)` (R114). -/
def asmClass (id : Byte) : AsmClass :=
  if id.toNat = 0 then .master
  else if id.toNat ≤ 15 then .uid
  else if id.toNat = 253 then .average
  else if id.toNat = 254 then .sum
  else .unknown

/-- `asmvalid(id)` (R114). -/
def asmValid (id : Byte) : Bool := asmClass id != .unknown

/-- `asmword(id) = cls(id) << 16 | id` (R71, R114). -/
def asmWord (id : Byte) : Word := 0#13 ++ (asmClass id).code ++ 0#8 ++ id

/-- The 3-bit value of RXST (R23). -/
def RxState.code : RxState → BitVec 3
  | .sof => 0#3
  | .hdr => 1#3
  | .hck => 2#3
  | .data => 3#3
  | .dck => 4#3
  | .done => 5#3
  | .fault => 6#3

/-- The 2-bit value of TXPK (R20). -/
def PayKind.code : PayKind → BitVec 2
  | .empty => 0#2
  | .value => 1#2
  | .minfo => 2#2
  | .abort => 3#2

/-- The 3-bit value of PTAG (R28). -/
def ValTag.code : ValTag → BitVec 3
  | .none => 0#3
  | .absent => 1#3
  | .bool => 2#3
  | .int => 3#3
  | .float => 4#3
  | .bstream => 5#3

/-- The number of a fault code (R134): the `status` value and the index of the FLT bit. -/
def FaultCode.number : FaultCode → Nat
  | .ill => 1
  | .fmt => 2
  | .range => 3
  | .value => 4
  | .state => 5
  | .len => 6
  | .short => 7
  | .asm => 8
  | .sflags => 9

/-- The `status` byte of a fault (R133, R134). -/
def FaultCode.status (c : FaultCode) : Byte := BitVec.ofNat 8 c.number

/-- The FLT bit of a fault (R29, R133). -/
def FaultCode.bit (c : FaultCode) : BitVec 16 := 1#16 <<< c.number

end Sys2Proof.Machine
end

