-- ==== Sys2Proof/Machine/Ops.lean ====
section
/-! DEFINITION. The named operations: reading and appending to the byte buffers (00_scope.md R10; 20_memory.md R35, R47), the
response and the fault mechanism (30_encoding.md R59; 60_exceptions.md R133), the writes of each group of state, and taking
the host's next command word (00_scope.md R5). -/

namespace Sys2Proof.Machine

/-- MemRead(BUF, addr, n) (R10): the n bytes from `addr`, defined only when the range lies inside the buffer's length. -/
def memRead (buf : Bytes) (addr n : Nat) : Option Bytes :=
  if addr + n ≤ buf.length then some ((buf.drop addr).take n) else none

/-- MemWrite(BUF, len, n, v) for the appending and the whole-buffer stores (R10, R168): `v` goes after `buf`, defined only
when the result lies inside the capacity. -/
def memAppend (capacity : Nat) (buf v : Bytes) : Option Bytes :=
  if buf.length + v.length ≤ capacity then some (buf ++ v) else none

/-- A buffer as (address, byte) cells: its addresses are 0 … length−1 (R35). -/
def bufferCells (buf : Bytes) : List Host.Cell := buf.zipIdx.map fun p => (p.2, p.1)

/-- The three buffers lie within their capacities (R33 item 1, R35). -/
def Memory.wf (s : State) : Bool :=
  decide (s.txpay.length ≤ s.maxpay) && decide (s.txbuf.length ≤ Config.maxFrame s.maxpay) &&
    decide (s.raw.length ≤ Config.maxFrame s.maxpay)

/-- `rsp(d)` (R10, R59): the command succeeds with status 0x00. -/
def State.respond (s : State) (d : Word) : State := { s with rsp := some ⟨0x00#8, d⟩ }

/-- `raise F(code)` (R10, R133): response `(code, 0)`, bit `code` of FLT set, nothing else. This is the whole of fault
entry; there is no vector, no saved state and no return (R139, R140). -/
def State.raise (s : State) (c : FaultCode) : State :=
  { s with flt := s.flt ||| c.bit, rsp := some ⟨c.status, 0#32⟩ }

/-- The pair A, B (R17). -/
def State.setAcc (s : State) (a b : Byte) : State := { s with a := a, b := b }

/-- TXPAY and its kind (R19, R20). -/
def State.setPay (s : State) (pay : Bytes) (kind : PayKind) : State := { s with txpay := pay, txpk := kind }

/-- TXBUF, written whole (R21). -/
def State.setTx (s : State) (buf : Bytes) : State := { s with txbuf := buf }

/-- RAW and the parser state (R22, R23). -/
def State.setRx (s : State) (raw : Bytes) (st : RxState) : State := { s with raw := raw, rxst := st }

/-- PVAL and PTAG (R28). -/
def State.setVal (s : State) (v : Word) (t : ValTag) : State := { s with pval := v, ptag := t }

/-- A command that succeeds: the next state with its response. -/
def answer (s : State) (d : Word) : Result := .next (s.respond d)

/-- A command that faults: the next state with the fault recorded (R133: "A fault does not stop the PCU"). -/
def raiseFault (s : State) (c : FaultCode) : Result := .next (s.raise c)

/-- `require c else F(code)` (R10), `k` being the rest of the command. -/
def require (s : State) (c : Prop) [Decidable c] (code : FaultCode) (k : Result) : Result :=
  if c then k else raiseFault s code

/-- The rest of a command after a value the spec defines only under R33: where it is not defined, the model's fault. -/
def orFault {α : Type} (o : Option α) (f : Fault) (k : α → Result) : Result :=
  match o with
  | some v => k v
  | none => .fault f

/-- PLEN, the payload length `DLEN − 10` (R24), defined when DLEN is there and not below 10. -/
def payloadLength (raw : Bytes) : Option Nat :=
  match le16 raw 10 with
  | some d => if Config.fixData ≤ d.toNat then some (d.toNat - Config.fixData) else none
  | none => none

/-- `require x[RXST] = S_DONE else F(ERR_STATE)`: the check of every command on a parsed frame (R24, R129). -/
def requireFrame (s : State) (k : Result) : Result := require s (s.rxst = .done) .state k

/-- The reset state, reached by SRST (R34, R128): every element of R13 takes its reset value. The parameter and the host's
words are not elements of R13 (R32). -/
def State.softReset (s : State) : State := { State.reset with maxpay := s.maxpay, cmds := s.cmds, rsp := s.rsp }

/-- The host presents its next word, and what is left of its words after that (R5, R49). -/
def State.fetch (s : State) : Option (CmdWord × State) :=
  match s.cmds with
  | [] => none
  | w :: rest => some (w, { s with cmds := rest })

/-- The host will present `w` next. -/
def State.present (s : State) (w : CmdWord) : State := { s with cmds := w :: s.cmds }

/-- No word is presented: "The PCU is idle between commands and keeps all state while idle" (R147, R150). -/
def idle (s : State) : Result := .next s

/-- A word that does not decode: ERR_ILL, `FLT[1]`, "and changes nothing else" (R58, R64). -/
def illegalWord (s : State) : Result := raiseFault s .ill

end Sys2Proof.Machine
end

