-- ==== Sys2Proof/Machine/Flags.lean ====
section
/-! DEFINITION. The checksum function (40_checksum.md R80) and the flags of a parsed frame, RXFLG (10_state.md R25). -/

namespace Sys2Proof.Machine

/-- The two accumulators as a pair. -/
abbrev Acc := Byte × Byte

/-- The start values of the accumulators (R80, R81). -/
def accInit : Acc := (Config.csAInit, Config.csBInit)

/-- One byte absorbed (R80, R82): `B` adds the new `A`; both wrap modulo 256. -/
def absorb (acc : Acc) (v : Byte) : Acc := (acc.1 + v, acc.2 + (acc.1 + v))

/-- A byte sequence absorbed in order (R80). -/
def absorbAll (acc : Acc) (s : Bytes) : Acc := s.foldl absorb acc

/-- `{A, B}` as the 16-bit value `A << 8 | B` (R80). -/
def accWord (acc : Acc) : Half := acc.1 ++ acc.2

/-- `checksum(s)` (R80). -/
def checksum (s : Bytes) : Half := accWord (absorbAll accInit s)

/-- SOFOK: 1 iff `RAW[0] = 0xAA` (R25). -/
def flagSofOk (raw : Bytes) : Option Bool :=
  match raw[0]? with
  | some v => some (v == Config.sof)
  | none => none

/-- HCKOK: 1 iff `be16(RAW, 12) = checksum(RAW[1..12))` (R25). -/
def flagHckOk (raw : Bytes) : Option Bool :=
  match be16 raw 12, memRead raw 1 11 with
  | some k, some hdr => some (k == checksum hdr)
  | _, _ => none

/-- DCKOK: 1 iff `be16(RAW, 24+PLEN) = checksum(RAW[14..24+PLEN))` (R25). -/
def flagDckOk (raw : Bytes) : Option Bool :=
  match payloadLength raw with
  | some n =>
    match be16 raw (24 + n), memRead raw 14 (10 + n) with
    | some k, some dat => some (k == checksum dat)
    | _, _ => none
  | none => none

/-- ISRSP: 1 iff `RAW[14]` is 0x02 or 0x03 (R25, R97). -/
def flagIsRsp (sflags : Byte) : Bool := sflags == 0x02#8 || sflags == 0x03#8

/-- ISERR: 1 iff `RAW[14] = 0x03` (R25, R67: equality, not a bit test). -/
def flagIsErr (sflags : Byte) : Bool := sflags == 0x03#8

/-- RXFLG, five bits: SOFOK 0, HCKOK 1, DCKOK 2, ISRSP 3, ISERR 4 (R25). -/
def rxFlags (raw : Bytes) : Option (BitVec 5) :=
  match flagSofOk raw, flagHckOk raw, flagDckOk raw, raw[14]? with
  | some sofOk, some hckOk, some dckOk, some sf =>
    some (BitVec.ofBool (flagIsErr sf) ++ BitVec.ofBool (flagIsRsp sf) ++ BitVec.ofBool dckOk ++
      BitVec.ofBool hckOk ++ BitVec.ofBool sofOk)
  | _, _, _, _ => none

end Sys2Proof.Machine
end

