-- ==== Sys2Proof/Machine/Registers.lean ====
section
/-! DEFINITION. The register-number space of GET and SET (10_state.md R26; 20_memory.md R36): 29 registers, their
numbers, which are writable, and which are views of the received frame. -/

namespace Sys2Proof.Machine

/-- The 29 host-visible registers, by the names of R26 (`csaA`, `csaB` are CSA_A, CSA_B). -/
inductive Reg where
  | tsrc | tdst | totype | toid | tpid
  | txlen | txplen | txpk
  | csaA | csaB
  | rxst | rxpos
  | sofb | fflags | src | dst | dlen | hck | sflags | sid | otype | oid | pid | plen | dck | rxflg
  | pval | ptag | flt
  deriving DecidableEq, Repr

/-- The number of a register (R26, column "number"). -/
def Reg.number : Reg → BitVec 8
  | .tsrc => 0x00#8 | .tdst => 0x01#8 | .totype => 0x02#8 | .toid => 0x03#8 | .tpid => 0x04#8
  | .txlen => 0x08#8 | .txplen => 0x09#8 | .txpk => 0x0A#8
  | .csaA => 0x10#8 | .csaB => 0x11#8
  | .rxst => 0x20#8 | .rxpos => 0x21#8
  | .sofb => 0x22#8 | .fflags => 0x23#8 | .src => 0x24#8 | .dst => 0x25#8 | .dlen => 0x26#8
  | .hck => 0x27#8 | .sflags => 0x28#8 | .sid => 0x29#8 | .otype => 0x2A#8 | .oid => 0x2B#8
  | .pid => 0x2C#8 | .plen => 0x2D#8 | .dck => 0x2E#8 | .rxflg => 0x2F#8
  | .pval => 0x30#8 | .ptag => 0x31#8 | .flt => 0x7E#8

/-- The registers of R26 in the order of its table. -/
def Reg.all : List Reg :=
  [.tsrc, .tdst, .totype, .toid, .tpid, .txlen, .txplen, .txpk, .csaA, .csaB, .rxst, .rxpos,
   .sofb, .fflags, .src, .dst, .dlen, .hck, .sflags, .sid, .otype, .oid, .pid, .plen, .dck, .rxflg,
   .pval, .ptag, .flt]

/-- The register a number names, or `none`: "Every number not in this table names no register" (R26). -/
def Reg.ofNumber (n : BitVec 8) : Option Reg :=
  Reg.all.find? fun r => r.number == n

/-- R26, column "access": the five request descriptor registers are "read, write", the rest "read". -/
def Reg.writable : Reg → Bool
  | .tsrc | .tdst | .totype | .toid | .tpid => true
  | _ => false

/-- R26, column "defined when": the frame fields and RXFLG, numbers 0x22 to 0x2F, exist in S_DONE only. -/
def Reg.isView : Reg → Bool
  | .sofb | .fflags | .src | .dst | .dlen | .hck | .sflags | .sid | .otype | .oid | .pid | .plen
  | .dck | .rxflg => true
  | _ => false

end Sys2Proof.Machine
end

