-- ==== Sys2Proof/Machine/Views.lean ====
section
/-! DEFINITION. What GET reads: the registers of 10_state.md R26 with the extension of R27, the frame fields being the views
of RAW of R24 and R25. -/

namespace Sys2Proof.Machine

/-- DCK: `be16(RAW, 24 + PLEN)` (R24). -/
def dataChecksum (raw : Bytes) : Option Half :=
  match payloadLength raw with
  | some n => be16 raw (24 + n)
  | none => none

/-- A frame field of R24 or RXFLG (R25), extended to 32 bits as R26 and R27 say (OTYPE, PID sign-extended, the rest
zero-extended); for a register that is no view of RAW, `none`. -/
def frameField (r : Reg) (raw : Bytes) : Option Word :=
  match r with
  | .sofb => raw[0]?.map zext
  | .fflags => raw[1]?.map zext
  | .src => le32 raw 2
  | .dst => le32 raw 6
  | .dlen => (le16 raw 10).map zext
  | .hck => (be16 raw 12).map zext
  | .sflags => raw[14]?.map zext
  | .sid => raw[15]?.map zext
  | .otype => (le16 raw 16).map sext16
  | .oid => le32 raw 18
  | .pid => (le16 raw 22).map sext16
  | .plen => (payloadLength raw).map fun n => zext (BitVec.ofNat 16 n)
  | .dck => (dataChecksum raw).map zext
  | .rxflg => (rxFlags raw).map zext
  | .tsrc | .tdst | .totype | .toid | .tpid | .txlen | .txplen | .txpk | .csaA | .csaB | .rxst | .rxpos
  | .pval | .ptag | .flt => none

/-- The value GET delivers for a register (R26, R27). -/
def readReg (r : Reg) (s : State) : Option Word :=
  match r with
  | .tsrc => some s.tsrc
  | .tdst => some s.tdst
  | .totype => some (sext16 s.totype)
  | .toid => some s.toid
  | .tpid => some (sext16 s.tpid)
  | .txlen => some (zext (BitVec.ofNat 16 s.txbuf.length))
  | .txplen => some (zext (BitVec.ofNat 16 s.txpay.length))
  | .txpk => some (zext s.txpk.code)
  | .csaA => some (zext s.a)
  | .csaB => some (zext s.b)
  | .rxst => some (zext s.rxst.code)
  | .rxpos => some (zext (BitVec.ofNat 16 s.raw.length))
  | .pval => some s.pval
  | .ptag => some (zext s.ptag.code)
  | .flt => some (zext s.flt)
  | .sofb | .fflags | .src | .dst | .dlen | .hck | .sflags | .sid | .otype | .oid | .pid | .plen | .dck
  | .rxflg => frameField r s.raw

/-- A load of one byte by absolute index, zero-extended; at or beyond the length it faults with ERR_SHORT (R47, R168). -/
def loadByte (s : State) (buf : Bytes) (i : Half) : Result :=
  match buf[i.toNat]? with
  | some v => answer s (zext v)
  | none => raiseFault s .short

end Sys2Proof.Machine
end

