-- ==== Sys2Proof/Machine/Builder.lean ====
section
/-! DEFINITION. The frame builder: the frame image, TXCLR, BLDRD, BLDWR, TXRAW (41_frame_builder.md R85 to R90). -/

namespace Sys2Proof.Machine

/-- The header section `hdr` of R85: frame flags, source, destination, data size; 11 bytes. -/
def headerSection (src dst : Word) (n : Nat) : Bytes :=
  [0x00#8] ++ bytesLe src 4 ++ bytesLe dst 4 ++ bytesLe (BitVec.ofNat 16 (Config.fixData + n)) 2

/-- The data section `dat` of R85: service flags 0x00, service id, object type, object id, property id, payload. -/
def dataSection (sid : Byte) (otype : Half) (oid : Word) (pid : Half) (pay : Bytes) : Bytes :=
  [0x00#8, sid] ++ bytesLe otype 2 ++ bytesLe oid 4 ++ bytesLe pid 2 ++ pay

/-- `frame(sid, src, dst, otype, oid, pid, pay)` (R85). -/
def frame (sid : Byte) (src dst : Word) (otype : Half) (oid : Word) (pid : Half) (pay : Bytes) : Bytes :=
  let hdr := headerSection src dst pay.length
  let dat := dataSection sid otype oid pid pay
  [Config.sof] ++ hdr ++ bytesBe16 (checksum hdr) ++ dat ++ bytesBe16 (checksum dat)

/-- `build(sid)` (R89): both checksums run through the pair A, B, which keeps the data checksum's accumulators; the payload
is consumed. -/
def build (sid : Byte) (s : State) : Result :=
  let n := s.txpay.length
  let hdr := headerSection s.tsrc s.tdst n
  let hacc := absorbAll accInit hdr
  let dat := dataSection sid s.totype s.toid s.tpid s.txpay
  let dacc := absorbAll accInit dat
  let image := [Config.sof] ++ hdr ++ [hacc.1, hacc.2] ++ dat ++ [dacc.1, dacc.2]
  orFault (memAppend (Config.maxFrame s.maxpay) [] image) .outsideBuffer fun buf =>
  answer (((s.setAcc dacc.1 dacc.2).setTx buf).setPay [] .empty) (count (Config.minFrame + n))

/-- TXCLR (R86): legal in every state of TXPK. -/
def execTxclr (s : State) : Result := answer (s.setPay [] .empty) 0#32

/-- BLDRD (R87): a read_property request, plain or multi-info. -/
def execBldrd (s : State) : Result :=
  require s (s.txpk = .empty ∨ s.txpk = .minfo) .state <|
  build 0x01#8 s

/-- BLDWR (R88): a write_property request with exactly one value. -/
def execBldwr (s : State) : Result :=
  require s (s.txpk = .value) .state <|
  build 0x02#8 s

/-- TXRAW i (R90). -/
def execTxraw (i : Half) (s : State) : Result := loadByte s s.txbuf i

end Sys2Proof.Machine
end

