-- ==== Sys2Proof/Machine/ByteStream.lean ====
section
/-! DEFINITION. The byte-stream record codec: BSFLG, BSTIME, BSCNT, BSREF, BSAGG, BSVAL (45_byte_stream.md R117 to R124). -/

namespace Sys2Proof.Machine

/-- `bscount(N)`, the number of whole records in a payload of N bytes (R118). -/
def bsCount (n : Nat) : Nat :=
  if n < Config.bsCtxLen then 0 else (n - Config.bsCtxLen) / Config.bsRecLen

/-- Where record `i` starts in RAW: 32 + 7·i (R117). -/
def recordAt (i : Half) : Nat := Config.payOff + Config.bsCtxLen + Config.bsRecLen * i.toNat

/-- A command on the payload of the parsed frame: ERR_STATE unless one is held, then its payload length (R24). -/
def withPayload (s : State) (k : Nat → Result) : Result :=
  requireFrame s <|
  orFault (payloadLength s.raw) .outsideBuffer k

/-- A command on the context block, which must be present whole (R119, R120). -/
def withContext (s : State) (k : Result) : Result :=
  withPayload s fun n =>
  require s (Config.bsCtxLen ≤ n) .short k

/-- A command on record `i`, which must exist (R122 to R124). -/
def withRecord (s : State) (i : Half) (k : Nat → Result) : Result :=
  withPayload s fun n =>
  require s (i.toNat < bsCount n) .short <|
  k (recordAt i)

/-- BSFLG (R119): the context word, bits without a meaning passed through. -/
def execBsflg (s : State) : Result :=
  withContext s <|
  orFault (le32 s.raw Config.payOff) .outsideBuffer fun v => answer s v

/-- VER, the protocol version in the context word (R119): `data[3:0]`. -/
def contextVersion (ctxw : Word) : BitVec 4 := ctxw.extractLsb' 0 4

/-- FAM (R119): `data[4]`, 1 for Xcom-GSM, 0 for Xcom-LAN. -/
def contextIsGsm (ctxw : Word) : Bool := ctxw.getLsbD 4

/-- XT (R119): `data[5]`. -/
def contextXt (ctxw : Word) : Bool := ctxw.getLsbD 5

/-- BSP (R119): `data[6]`. -/
def contextBsp (ctxw : Word) : Bool := ctxw.getLsbD 6

/-- VT (R119): `data[7]`. -/
def contextVt (ctxw : Word) : Bool := ctxw.getLsbD 7

/-- VS (R119): `data[8]`. -/
def contextVs (ctxw : Word) : Bool := ctxw.getLsbD 8

/-- BSTIME (R120): the timestamp, raw. -/
def execBstime (s : State) : Result :=
  withContext s <|
  orFault (le32 s.raw (Config.payOff + 4)) .outsideBuffer fun v => answer s v

/-- BSCNT (R121): the number of records. -/
def execBscnt (s : State) : Result :=
  withPayload s fun n => answer s (count (bsCount n))

/-- BSREF i (R122): the record's reference, unsigned. -/
def execBsref (i : Half) (s : State) : Result :=
  withRecord s i fun start =>
  orFault (le16 s.raw start) .outsideBuffer fun v => answer s (zext v)

/-- BSAGG i (R123): the record's aggregation id with its class; an id with no name is no fault. -/
def execBsagg (i : Half) (s : State) : Result :=
  withRecord s i fun start =>
  orFault s.raw[start + 2]? .outsideBuffer fun id => answer s (asmWord id)

/-- BSVAL i (R124): the record's value, its binary32 pattern unchanged. -/
def execBsval (i : Half) (s : State) : Result :=
  withRecord s i fun start =>
  orFault (le32 s.raw (start + 3)) .outsideBuffer fun v => answer s v

end Sys2Proof.Machine
end

