-- ==== Sys2Proof/Machine/Checksum.lean ====
section
/-! DEFINITION. The checksum accumulator commands CSINIT, CSADD, CSRD (40_checksum.md R81 to R83). -/

namespace Sys2Proof.Machine

/-- The pair A, B of the state. -/
def accOf (s : State) : Acc := (s.a, s.b)

/-- CSINIT (R81). -/
def execCsinit (s : State) : Result := answer (s.setAcc accInit.1 accInit.2) 0#32

/-- CSADD v (R82): the response is the checksum so far. -/
def execCsadd (v : Byte) (s : State) : Result :=
  let acc := absorb (accOf s) v
  answer (s.setAcc acc.1 acc.2) (zext (accWord acc))

/-- CSRD (R83): `rsp(x[A] << 8 | x[B])`. -/
def execCsrd (s : State) : Result := answer s (zext (accWord (accOf s)))

end Sys2Proof.Machine
end

