-- ==== Sys2Proof/Machine/MultiInfo.lean ====
section
/-! DEFINITION. The multi-info entry encoder and the assembly classifier: MIADD, ASMCLS (44_multi_info.md R112 to R115). -/

namespace Sys2Proof.Machine

/-- `migroup(ref, id)` (R112): a little-endian reference and a one-byte assembly id. -/
def miGroup (ref : Half) (id : Byte) : Bytes := bytesLe ref 2 ++ [id]

/-- `abort(code)` (R113): the groups so far are discarded, the request is dead until TXCLR, and the command faults (one of
the two faults of R133 that change state). -/
def abortRequest (s : State) (c : FaultCode) : Result := raiseFault (s.setPay [] .abort) c

/-- MIADD ref, id (R113): the checks STATE, LEN, ASM in this order, then one group is appended. -/
def execMiadd (id : Byte) (ref : Half) (s : State) : Result :=
  require s (s.txpk = .empty ∨ s.txpk = .minfo) .state <|
  match memAppend s.maxpay s.txpay (miGroup ref id) with
  | none => abortRequest s .len
  | some pay => if asmValid id then answer (s.setPay pay .minfo) (count pay.length) else abortRequest s .asm

/-- ASMCLS id (R115): an unknown id is answered, not refused. -/
def execAsmcls (id : Byte) (s : State) : Result := answer s (asmWord id)

end Sys2Proof.Machine
end

