-- ==== Sys2Proof/Machine/ValueCodec.lean ====
section
/-! DEFINITION. The value encoder/decoder multiplexer: venc, vdec, VENC, VDEC (43_value_codec.md R105 to R109). -/

namespace Sys2Proof.Machine

/-- `venc(fmt, imm)` for the five codecs (R106): the wire bytes, or the fault. -/
def valueEncode (c : Codec) (imm : Word) : Except FaultCode Bytes :=
  match c with
  | .bool => if imm = 0#32 ∨ imm = 1#32 then .ok (bytesLe imm 1) else .error .range
  | .shortEnum => if fitsSigned16 imm then .ok (bytesLe (low16 imm) 2) else .error .range
  | .longEnum | .int32 | .float => .ok (bytesLe imm 4)

/-- `vdec(fmt, W, b)` with `W = len(b)` (R108): `none` for the pairs R108 does not define; otherwise the 32-bit value, or
ERR_VALUE for a bool byte other than 0x00, 0x01. A float is its pattern, unchanged (R111). -/
def valueDecode (c : Codec) (bytes : Bytes) : Option (Except FaultCode Word) :=
  match c, bytes with
  | .bool, [b0] => some (if b0 = 0x00#8 then .ok 0#32 else if b0 = 0x01#8 then .ok 1#32 else .error .value)
  | .shortEnum, [b0, b1] | .longEnum, [b0, b1] | .int32, [b0, b1] => some (.ok (sext16 (b1 ++ b0)))
  | .longEnum, [b0, b1, b2, b3] | .int32, [b0, b1, b2, b3] | .float, [b0, b1, b2, b3] =>
    some (.ok (b3 ++ b2 ++ b1 ++ b0))
  | _, _ => none

/-- The rest of a command after a codec, whose fault is the command's fault. -/
def orRaise {α : Type} (s : State) (r : Except FaultCode α) (k : α → Result) : Result :=
  match r with
  | .ok v => k v
  | .error c => raiseFault s c

/-- VENC.fmt value (R107): the checks FMT, STATE, RANGE in this order, then TXPAY is the encoding. -/
def execVenc (fmt : BitVec 4) (value : Word) (s : State) : Result :=
  match (FormatTag.ofCode fmt).codec with
  | none => raiseFault s .fmt
  | some c =>
    require s (s.txpk = .empty) .state <|
    orRaise s (valueEncode c value) fun bytes =>
    orFault (memAppend s.maxpay [] bytes) .outsideBuffer fun pay =>
    answer (s.setPay pay .value) (count bytes.length)

/-- VDEC.fmt bytes (R109): the checks FMT, RANGE, VALUE in this order, always at the encode width. -/
def execVdec (fmt : BitVec 4) (value : Word) (s : State) : Result :=
  match (FormatTag.ofCode fmt).codec with
  | none => raiseFault s .fmt
  | some c =>
    require s (value >>> (8 * c.width) = 0#32) .range <|
    orFault (valueDecode c (bytesLe value c.width)) .outsideBuffer fun r =>
    orRaise s r fun v =>
    answer s v

end Sys2Proof.Machine
end

