-- ==== Sys2Proof/Machine/Parser.lean ====
section
/-! DEFINITION. The frame parser: the transition function, RXRST, RXB, RXDEC, RXERR, RXRAW (42_frame_parser.md R92 to R103). -/

namespace Sys2Proof.Machine

/-- `10 ≤ D ≤ 10 + MAXPAY`, D read unsigned (R95, 90_conflicts.md C3). -/
def sizeAccepted (maxpay : Nat) (d : Half) : Bool :=
  decide (Config.fixData ≤ d.toNat) && decide (d.toNat ≤ Config.fixData + maxpay)

/-- The transition function `next(st, p, RAW)` of R95, `raw` with the byte at offset `p` already appended; `none` where its
table has no row. -/
def nextState (maxpay : Nat) (st : RxState) (p : Nat) (raw : Bytes) : Option RxState :=
  match st with
  | .sof => if p = 0 then some .hdr else none
  | .hdr =>
    if 1 ≤ p ∧ p ≤ 10 then some .hdr
    else if p = 11 then (le16 raw 10).map fun d => if sizeAccepted maxpay d then .hck else .fault
    else none
  | .hck => if p = 12 then some .hck else if p = 13 then some .data else none
  | .data =>
    match le16 raw 10 with
    | some d => if 14 ≤ p ∧ p ≤ 12 + d.toNat then some .data else if p = 13 + d.toNat then some .dck else none
    | none => none
  | .dck =>
    match le16 raw 10 with
    | some d => if p = 14 + d.toNat then some .dck else if p = 15 + d.toNat then some .done else none
    | none => none
  | .done | .fault => none

/-- RXRST (R93): legal in every parser state. -/
def execRxrst (s : State) : Result := answer ((s.setRx [] .sof).setVal 0#32 .none) 0#32

/-- RXB v (R94): the byte that completes an unacceptable data size stays consumed, and the command faults with ERR_LEN
(one of the two faults of R133 that change state). -/
def execRxb (v : Byte) (s : State) : Result :=
  require s (s.rxst ≠ .done ∧ s.rxst ≠ .fault) .state <|
  orFault (memAppend (Config.maxFrame s.maxpay) s.raw [v]) .outsideBuffer fun raw =>
  orFault (nextState s.maxpay s.rxst s.raw.length raw) .noTransition fun st =>
  if st = .fault then raiseFault (s.setRx raw st) .len else answer (s.setRx raw st) (zext st.code)

/-- A successful RXDEC: PTAG and PVAL written, the value answered (R100). -/
def decoded (s : State) (t : ValTag) (v : Word) : Result := answer (s.setVal v t) v

/-- RXDEC.fmt (R100): the checks FMT, STATE, SFLAGS, then the empty payload, the byte-stream, and the fixed widths of R98
with the checks SHORT, VALUE. -/
def execRxdec (rd : Bool) (fmt : BitVec 4) (s : State) : Result :=
  let tag := FormatTag.ofCode fmt
  require s (tag.decodable = true) .fmt <|
  requireFrame s <|
  orFault s.raw[14]? .outsideBuffer fun sflags =>
  match Direction.ofFlags sflags with
  | none => raiseFault s .sflags
  | some dir =>
    orFault (payloadLength s.raw) .outsideBuffer fun n =>
    if n = 0 then decoded s .absent 0#32
    else
      match tag.codec with
      | none => decoded s .bstream (count (bsCount n))
      | some c =>
        require s (frameWidth dir c rd ≤ n) .short <|
        orFault (memRead s.raw Config.payOff (frameWidth dir c rd)) .outsideBuffer fun bytes =>
        orFault (valueDecode c bytes) .outsideBuffer fun r =>
        orRaise s r fun v =>
        decoded s c.valTag v

/-- RXERR (R101): the error code of an error response, big-endian (R40). -/
def execRxerr (s : State) : Result :=
  requireFrame s <|
  orFault s.raw[14]? .outsideBuffer fun sflags =>
  require s (sflags = 0x03#8) .sflags <|
  orFault (payloadLength s.raw) .outsideBuffer fun n =>
  require s (2 ≤ n) .short <|
  orFault (be16 s.raw Config.payOff) .outsideBuffer fun code => answer s (zext code)

/-- RXRAW i (R103): legal in every parser state. -/
def execRxraw (i : Half) (s : State) : Result := loadByte s s.raw i

end Sys2Proof.Machine
end

