-- ==== Sys2Proof/Machine/System.lean ====
section
/-! DEFINITION. The system commands NOP, SRST, GET, SET (46_system.md R126 to R131). -/

namespace Sys2Proof.Machine

/-- NOP (R127): `rsp(0)`. -/
def execNop (s : State) : Result := answer s 0#32

/-- SRST (R128): every element of state takes its reset value. -/
def execSrst (s : State) : Result := answer s.softReset 0#32

/-- GET reg (R129): ERR_ILL for an unassigned number, ERR_STATE for a frame field with no whole frame held. -/
def execGet (reg : BitVec 8) (s : State) : Result :=
  match Reg.ofNumber reg with
  | none => raiseFault s .ill
  | some r =>
    require s (r.isView = false ∨ s.rxst = .done) .state <|
    orFault (readReg r s) .outsideBuffer fun v =>
    answer s v

/-- SET reg, value (R130): ERR_ILL outside the five descriptor registers, ERR_RANGE for a value that is no signed 16-bit
number in a 16-bit one. -/
def execSet (reg : BitVec 8) (value : Word) (s : State) : Result :=
  match Reg.ofNumber reg with
  | some .tsrc => answer { s with tsrc := value } 0#32
  | some .tdst => answer { s with tdst := value } 0#32
  | some .totype => require s (fitsSigned16 value = true) .range (answer { s with totype := low16 value } 0#32)
  | some .toid => answer { s with toid := value } 0#32
  | some .tpid => require s (fitsSigned16 value = true) .range (answer { s with tpid := low16 value } 0#32)
  | _ => raiseFault s .ill

end Sys2Proof.Machine
end

