-- ==== Sys2Proof/Machine/Dispatch.lean ====
section
/-! DEFINITION. One arm per command, each a direct call of its meaning. -/

namespace Sys2Proof.Machine

def exec (i : Instr) (s : State) : Host.Outcome State Fault Refusal :=
  match i with
  | .nop => Sys2Proof.Machine.execNop s
  | .srst => Sys2Proof.Machine.execSrst s
  | .get reg => Sys2Proof.Machine.execGet reg s
  | .set reg value => Sys2Proof.Machine.execSet reg value s
  | .csinit => Sys2Proof.Machine.execCsinit s
  | .csadd v => Sys2Proof.Machine.execCsadd v s
  | .csrd => Sys2Proof.Machine.execCsrd s
  | .txclr => Sys2Proof.Machine.execTxclr s
  | .bldrd => Sys2Proof.Machine.execBldrd s
  | .bldwr => Sys2Proof.Machine.execBldwr s
  | .txraw n => Sys2Proof.Machine.execTxraw n s
  | .rxrst => Sys2Proof.Machine.execRxrst s
  | .rxb v => Sys2Proof.Machine.execRxb v s
  | .rxdec rd fmt => Sys2Proof.Machine.execRxdec rd fmt s
  | .rxerr => Sys2Proof.Machine.execRxerr s
  | .rxraw n => Sys2Proof.Machine.execRxraw n s
  | .venc fmt value => Sys2Proof.Machine.execVenc fmt value s
  | .vdec fmt value => Sys2Proof.Machine.execVdec fmt value s
  | .miadd id ref => Sys2Proof.Machine.execMiadd id ref s
  | .asmcls id => Sys2Proof.Machine.execAsmcls id s
  | .bsflg => Sys2Proof.Machine.execBsflg s
  | .bstime => Sys2Proof.Machine.execBstime s
  | .bscnt => Sys2Proof.Machine.execBscnt s
  | .bsref n => Sys2Proof.Machine.execBsref n s
  | .bsagg n => Sys2Proof.Machine.execBsagg n s
  | .bsval n => Sys2Proof.Machine.execBsval n s

end Sys2Proof.Machine
end

