-- ==== Sys2Proof/Machine/Step.lean ====
section
/-! DEFINITION. One step: the host presents its next command word and the PCU performs the whole command (00_scope.md R5;
20_memory.md R46, R49). -/

namespace Sys2Proof.Machine

/-- One step. With no word presented the PCU is idle (R147); a word that does not decode is illegal (R64). -/
def step (s : State) : Host.Outcome State Fault Refusal :=
  match s.fetch with
  | none => idle s
  | some (w, s') =>
    match decode w with
    | .ok i => exec i s'
    | .error _ => illegalWord s'

/-- `s` with the command word of bits `w` as the next word the host presents: what "the host issues this command" is in the
model (log entry 2). -/
def State.withFetchWord (s : State) (nbits w : Nat) : State :=
  s.present (BitVec.ofNat 48 (w % 2 ^ nbits))

end Sys2Proof.Machine
end

