-- ==== Sys2Proof/Safety.lean ====
section
/-! DEFINITION. The terms in which claims about the PCU are made: the invariant of 10_state.md R33, runs of several commands,
the outcomes of a command, the spec's own lists of writers and of possible faults. -/

namespace Sys2Proof.Machine

/-- The commands `is`, presented one after the other (R11, R49). -/
def runAll : List Instr → State → Result
  | [], s => .next s
  | i :: rest, s =>
    match exec i s with
    | .next t => runAll rest t
    | .fault f => .fault f
    | .refused r => .refused r

/-- The next state of a command that succeeds with data `d` and changes nothing but the response (R59). -/
def answered (s : State) (d : Word) : State := { s with rsp := some ⟨0x00#8, d⟩ }

/-- The next state of a command that faults with code `c` and changes nothing but FLT and the response: bit `c` of FLT set,
response `(c, 0)` (R133). -/
def faulted (s : State) (c : Nat) : State :=
  { s with flt := s.flt ||| BitVec.twoPow 16 c, rsp := some ⟨BitVec.ofNat 8 c, 0#32⟩ }

/-- "Faults: ERR_ILL" of a command's rule at the level of words: a presented word with opcode `op` whose `sub` and `imm` the
command's format does not allow faults with ERR_ILL and does nothing else (R58, R64). -/
def RefusesWords (op : BitVec 8) (allowed : BitVec 8 → Word → Prop) : Prop :=
  ∀ (s : State) (w : CmdWord) (rest : List CmdWord), s.cmds = w :: rest → opField w = op →
    ¬ allowed (subField w) (immField w) → step s = .next (faulted { s with cmds := rest } 1)

/-- Format Z (R57). -/
def AllowedZ (sub : BitVec 8) (imm : Word) : Prop := sub = 0#8 ∧ imm = 0#32

/-- Format I8 (R57). -/
def AllowedI8 (sub : BitVec 8) (imm : Word) : Prop := sub = 0#8 ∧ imm.toNat < 256

/-- Format I16 (R57). -/
def AllowedI16 (sub : BitVec 8) (imm : Word) : Prop := sub = 0#8 ∧ imm.toNat < 65536

/-- Format F (R57). -/
def AllowedF (sub : BitVec 8) (imm : Word) : Prop := sub.toNat < 32 ∧ imm = 0#32

/-- Format FI (R57). -/
def AllowedFI (sub : BitVec 8) (_imm : Word) : Prop := sub.toNat < 16

/-- Format M (R57). -/
def AllowedM (sub : BitVec 8) (imm : Word) : Prop := sub = 0#8 ∧ imm.toNat < 2 ^ 24

/-- The numbers R26 assigns, as its table lists them. -/
def assignedNumbers : List (BitVec 8) :=
  [0x00#8, 0x01#8, 0x02#8, 0x03#8, 0x04#8, 0x08#8, 0x09#8, 0x0A#8, 0x10#8, 0x11#8, 0x20#8, 0x21#8, 0x22#8, 0x23#8,
   0x24#8, 0x25#8, 0x26#8, 0x27#8, 0x28#8, 0x29#8, 0x2A#8, 0x2B#8, 0x2C#8, 0x2D#8, 0x2E#8, 0x2F#8, 0x30#8, 0x31#8, 0x7E#8]

/-- The numbers of the frame fields and RXFLG, 0x22 to 0x2F (R26, R129). -/
def frameNumbers : List (BitVec 8) :=
  [0x22#8, 0x23#8, 0x24#8, 0x25#8, 0x26#8, 0x27#8, 0x28#8, 0x29#8, 0x2A#8, 0x2B#8, 0x2C#8, 0x2D#8, 0x2E#8, 0x2F#8]

/-- The numbers of the five descriptor registers (R26, R130). -/
def writableNumbers : List (BitVec 8) := [0x00#8, 0x01#8, 0x02#8, 0x03#8, 0x04#8]

/-- An illegal command word: R64 (a) and (b), no row of the opcode map selects it; (c), GET or SET with an unassigned register
number or SET of a read-only register. -/
def IllegalWord (w : CmdWord) : Prop :=
  (∀ r ∈ opcodeMap, r.selects w = false) ∨
  (opField w = 0x02#8 ∧ subField w ∉ assignedNumbers) ∨
  (opField w = 0x03#8 ∧ subField w ∉ writableNumbers)

/-- A whole frame with `n` payload bytes is held, as far as a command on the payload reads it: the state is S_DONE and the
data size says `10 + n` (R24). -/
def HoldsPayload (s : State) (n : Nat) : Prop :=
  s.rxst = .done ∧ ∃ d : Half, le16 s.raw 10 = some d ∧ d.toNat = 10 + n

/-- A request frame the builder makes (R85): service id 0x01 or 0x02 and a payload that fits. -/
def WellFormedRequest (maxpay : Nat) (f : Bytes) : Prop :=
  ∃ (sid : Byte) (src dst : Word) (otype : Half) (oid : Word) (pid : Half) (pay : Bytes),
    (sid = 0x01#8 ∨ sid = 0x02#8) ∧ pay.length ≤ maxpay ∧ f = frame sid src dst otype oid pid pay

/-- RXST as a function of RAW (R33 item 4); `none` for the lengths of which it says "No other L occurs". -/
def parserState (maxpay : Nat) (raw : Bytes) : Option RxState :=
  if raw.length = 0 then some .sof
  else if raw.length ≤ 11 then some .hdr
  else
    match le16 raw 10 with
    | none => none
    | some d =>
      if ¬ (10 ≤ d.toNat ∧ d.toNat ≤ 10 + maxpay) then (if raw.length = 12 then some .fault else none)
      else if raw.length ≤ 13 then some .hck
      else if raw.length ≤ 13 + d.toNat then some .data
      else if raw.length ≤ 15 + d.toNat then some .dck
      else if raw.length = 16 + d.toNat then some .done
      else none

/-- The lengths TXPAY may have under its kind (R33 item 2). -/
def kindAllows (kind : PayKind) (len : Nat) : Prop :=
  match kind with
  | .empty | .abort => len = 0
  | .value => len = 1 ∨ len = 2 ∨ len = 4
  | .minfo => 0 < len ∧ len % 3 = 0

/-- The invariant of R33, with the legal range of the parameter (R6). -/
structure Inv (s : State) : Prop where
  /-- R6: 8 ≤ MAXPAY ≤ 32757. -/
  config : 8 ≤ s.maxpay ∧ s.maxpay ≤ 32757
  /-- R33 item 1. -/
  lengths : s.txpay.length ≤ s.maxpay ∧ s.txbuf.length ≤ 26 + s.maxpay ∧ s.raw.length ≤ 26 + s.maxpay
  /-- R33 item 2. -/
  kind : kindAllows s.txpk s.txpay.length
  /-- R33 item 3. -/
  built : s.txbuf = [] ∨
    (WellFormedRequest s.maxpay s.txbuf ∧ ∃ d : Half, le16 s.txbuf 10 = some d ∧ s.txbuf.length = 26 + d.toNat - 10)
  /-- R33 item 4. -/
  parser : parserState s.maxpay s.raw = some s.rxst
  /-- R33 item 5: T_NONE and T_ABSENT go with the value 0. -/
  valueZero : s.ptag = .none ∨ s.ptag = .absent → s.pval = 0#32
  /-- R33 item 5: a decoded value belongs to a whole frame. -/
  valueFrame : s.ptag ≠ .none → s.rxst = .done
  /-- R33 item 6: FLT[0] = 0. -/
  fltLow : s.flt.getLsbD 0 = false
  /-- R33 item 6: FLT[15:10] = 0. -/
  fltHigh : ∀ k, 10 ≤ k → s.flt.getLsbD k = false

/-- The command answered with status 0x00. -/
def Succeeded (t : State) : Prop := ∃ d, t.rsp = some ⟨0x00#8, d⟩

/-- The command answered with fault code `c`. -/
def FaultedWith (t : State) (c : Nat) : Prop := t.rsp = some ⟨BitVec.ofNat 8 c, 0#32⟩

/-- The fault codes a command can raise once its word has decoded (R137, columns FMT to SFLAGS; the column ILL for the
register numbers of GET and SET). -/
def possibleFaults : Instr → List Nat
  | .nop | .srst | .csinit | .csadd _ | .csrd | .txclr | .asmcls _ | .rxrst => []
  | .get _ => [1, 5]
  | .set _ _ => [1, 3]
  | .bldrd | .bldwr => [5]
  | .txraw _ | .rxraw _ => [7]
  | .rxb _ => [5, 6]
  | .rxdec _ _ => [2, 4, 5, 7, 9]
  | .rxerr => [5, 7, 9]
  | .venc _ _ => [2, 3, 5]
  | .vdec _ _ => [2, 3, 4]
  | .miadd _ _ => [5, 6, 8]
  | .bscnt => [5]
  | .bsflg | .bstime | .bsref _ | .bsagg _ | .bsval _ => [5, 7]

/-- The commands that change no state when they succeed (R46), and NOP (R127). -/
def readsOnly : Instr → Bool
  | .nop | .get _ | .csrd | .rxraw _ | .txraw _ | .rxerr | .vdec _ _ | .asmcls _
  | .bsflg | .bstime | .bscnt | .bsref _ | .bsagg _ | .bsval _ => true
  | .srst | .set _ _ | .csinit | .csadd _ | .txclr | .bldrd | .bldwr | .rxrst | .rxb _ | .rxdec _ _
  | .venc _ _ | .miadd _ _ => false

/-- The commands that write A and B (R13, R17). -/
def writesAcc : Instr → Bool
  | .csinit | .csadd _ | .bldrd | .bldwr | .srst => true
  | .nop | .get _ | .set _ _ | .csrd | .txclr | .txraw _ | .rxrst | .rxb _ | .rxdec _ _ | .rxerr | .rxraw _
  | .venc _ _ | .vdec _ _ | .miadd _ _ | .asmcls _ | .bsflg | .bstime | .bscnt | .bsref _ | .bsagg _ | .bsval _ => false

/-- The byte a CSADD absorbs. -/
def csaddByte : Instr → Option Byte
  | .csadd v => some v
  | .nop | .srst | .get _ | .set _ _ | .csinit | .csrd | .txclr | .bldrd | .bldwr | .txraw _ | .rxrst | .rxb _
  | .rxdec _ _ | .rxerr | .rxraw _ | .venc _ _ | .vdec _ _ | .miadd _ _ | .asmcls _ | .bsflg | .bstime | .bscnt
  | .bsref _ | .bsagg _ | .bsval _ => none

end Sys2Proof.Machine
end

