-- ==== Sys2Proof/Certificates/Slice0/Obligations.lean ====
section
/-! DEFINITION. The statements for the provers. In a statement, `answered s d` is `s` with the response `(0x00, d)`, `faulted s c`
is `s` with bit `c` of FLT set and the response `(c, 0)` (R59, R133), and a record update names every element that changes:
all the others, the bytes of all three buffers included, are those of `s`. -/

open Sys2Proof Sys2Proof.Machine

/-! ## Command words -/

/-- The decoder reads back every command the encoder writes (R53 to R57, R62). -/
def Obligations.DecodeReadsBackEncode : Prop :=
  ∀ i : Instr, decode (encode i) = .ok i

/-- The encoder writes back every word the decoder accepts: no bit of a command word is ignored, no two words are the same
command (R58: "Reserved bits are not ignored"). -/
def Obligations.EncodeWritesBackDecode : Prop :=
  ∀ (w : CmdWord) (i : Instr), decode w = .ok i → encode i = w

/-- The decoder follows the opcode map: a word decodes to a command of a mnemonic exactly when it selects that row, no word
selects two rows, and a word that selects none does not decode (R62). -/
def Obligations.DecodeFollowsOpcodeMap : Prop :=
  (∀ (w : CmdWord) (i : Instr), decode w = .ok i → ∃ r ∈ opcodeMap, r.selects w = true ∧ r.mnemonic = mnemonic i) ∧
  (∀ (w : CmdWord), ∀ r ∈ opcodeMap, r.selects w = true → ∃ i, decode w = .ok i ∧ mnemonic i = r.mnemonic) ∧
  (∀ (w : CmdWord), ∀ r ∈ opcodeMap, ∀ r' ∈ opcodeMap, r.selects w = true → r'.selects w = true → r = r') ∧
  (∀ (w : CmdWord), (∀ r ∈ opcodeMap, r.selects w = false) → ∃ e, decode w = .error e)

/-- Words written out in the spec's programs and vectors decode to the commands they stand for. -/
def Obligations.SpecWordsDecode : Prop :=
  decode 0x030100000065#48 = .ok (.set 0x01#8 101#32) ∧
  decode 0x022F00000000#48 = .ok (.get 0x2F#8) ∧
  decode 0x1100000000FF#48 = .ok (.csadd 0xFF#8) ∧
  decode 0x23000000001A#48 = .ok (.txraw 26#16) ∧
  decode 0x321300000000#48 = .ok (.rxdec true 3#4) ∧
  decode 0x320600000000#48 = .ok (.rxdec false 6#4) ∧
  decode 0x4001FFFF8000#48 = .ok (.venc 1#4 0xFFFF8000#32) ∧
  decode 0x500000FD0BB8#48 = .ok (.miadd 253#8 3000#16) ∧
  decode 0x65000000FFFF#48 = .ok (.bsval 0xFFFF#16)

/-- An illegal command word faults with ERR_ILL, sets FLT[1] and changes nothing else (R64). -/
def Obligations.IllegalWordSetsOnlyFltBit : Prop :=
  ∀ (s : State) (w : CmdWord) (rest : List CmdWord), s.cmds = w :: rest → IllegalWord w →
    step s = .next (faulted { s with cmds := rest } 1)

/-- A step runs the command its word decodes to, the word being consumed from the host's list. That the host's words stand in the
state as a list is the model's choice (log entry 2). -/
def Obligations.StepRunsDecodedCommand : Prop :=
  ∀ (s : State) (w : CmdWord) (rest : List CmdWord) (i : Instr), s.cmds = w :: rest → decode w = .ok i →
    step s = exec i { s with cmds := rest }

/-- With no word presented a step changes nothing (R147: the PCU "keeps all state while idle"). That a step exists then is the
model's choice (log entry 2). -/
def Obligations.IdleKeepsState : Prop :=
  ∀ s : State, s.cmds = [] → step s = .next s

/-! ## System commands -/

/-- NOP (R127). -/
def Obligations.NopChangesNothing : Prop :=
  decode 0x000000000000#48 = .ok .nop ∧
  (∀ s : State, exec .nop s = .next (answered s 0#32)) ∧
  RefusesWords 0x00#8 AllowedZ

/-- SRST (R128): every element of R13 takes its reset value; the parameter and the host's remaining words stay. -/
def Obligations.SrstResetsEveryElement : Prop :=
  decode 0x010000000000#48 = .ok .srst ∧
  (∀ s : State, exec .srst s = .next
    { a := 0xFF#8, b := 0x00#8, tsrc := 0#32, tdst := 0#32, totype := 0#16, toid := 0#32, tpid := 0#16,
      txpay := [], txpk := .empty, txbuf := [], raw := [], rxst := .sof, pval := 0#32, ptag := .none, flt := 0#16,
      maxpay := s.maxpay, cmds := s.cmds, rsp := some ⟨0x00#8, 0#32⟩ }) ∧
  RefusesWords 0x01#8 AllowedZ

/-- The values after hardware reset (R34, R149), and that SRST gives the same in every element of R13. -/
def Obligations.ResetLeavesTheTable : Prop :=
  (State.reset.a = 0xFF#8 ∧ State.reset.b = 0x00#8 ∧ State.reset.tsrc = 0#32 ∧ State.reset.tdst = 0#32 ∧
    State.reset.totype = 0#16 ∧ State.reset.toid = 0#32 ∧ State.reset.tpid = 0#16 ∧ State.reset.txpay = [] ∧
    State.reset.txpk = .empty ∧ State.reset.txbuf = [] ∧ State.reset.raw = [] ∧ State.reset.rxst = .sof ∧
    State.reset.pval = 0#32 ∧ State.reset.ptag = .none ∧ State.reset.flt = 0#16) ∧
  (∀ s : State, exec .srst s =
    .next { State.reset with maxpay := s.maxpay, cmds := s.cmds, rsp := some ⟨0x00#8, 0#32⟩ })

/-- GET of the fifteen registers defined in every state, with their extensions (R26, R27, R129). -/
def Obligations.GetReadsRegisters : Prop :=
  ∀ s : State,
    exec (.get 0x00#8) s = .next (answered s s.tsrc) ∧
    exec (.get 0x01#8) s = .next (answered s s.tdst) ∧
    exec (.get 0x02#8) s = .next (answered s (BitVec.ofInt 32 s.totype.toInt)) ∧
    exec (.get 0x03#8) s = .next (answered s s.toid) ∧
    exec (.get 0x04#8) s = .next (answered s (BitVec.ofInt 32 s.tpid.toInt)) ∧
    (s.txbuf.length < 65536 → exec (.get 0x08#8) s = .next (answered s (BitVec.ofNat 32 s.txbuf.length))) ∧
    (s.txpay.length < 65536 → exec (.get 0x09#8) s = .next (answered s (BitVec.ofNat 32 s.txpay.length))) ∧
    exec (.get 0x0A#8) s = .next (answered s
      (match s.txpk with | .empty => 0#32 | .value => 1#32 | .minfo => 2#32 | .abort => 3#32)) ∧
    exec (.get 0x10#8) s = .next (answered s (0#24 ++ s.a)) ∧
    exec (.get 0x11#8) s = .next (answered s (0#24 ++ s.b)) ∧
    exec (.get 0x20#8) s = .next (answered s
      (match s.rxst with
        | .sof => 0#32 | .hdr => 1#32 | .hck => 2#32 | .data => 3#32 | .dck => 4#32 | .done => 5#32 | .fault => 6#32)) ∧
    (s.raw.length < 65536 → exec (.get 0x21#8) s = .next (answered s (BitVec.ofNat 32 s.raw.length))) ∧
    exec (.get 0x30#8) s = .next (answered s s.pval) ∧
    exec (.get 0x31#8) s = .next (answered s
      (match s.ptag with
        | .none => 0#32 | .absent => 1#32 | .bool => 2#32 | .int => 3#32 | .float => 4#32 | .bstream => 5#32)) ∧
    exec (.get 0x7E#8) s = .next (answered s (0#16 ++ s.flt))

/-- GET of the thirteen frame fields of a parsed frame: the views of RAW of R24 with the extensions of R26. -/
def Obligations.GetReadsFrameFields : Prop :=
  ∀ s : State, Inv s → s.rxst = .done →
    ∃ (sofb fflags sflags sid : Byte) (src dst oid : Word) (dlen hck otype pid dck : Half),
      s.raw[0]? = some sofb ∧ exec (.get 0x22#8) s = .next (answered s (0#24 ++ sofb)) ∧
      s.raw[1]? = some fflags ∧ exec (.get 0x23#8) s = .next (answered s (0#24 ++ fflags)) ∧
      le32 s.raw 2 = some src ∧ exec (.get 0x24#8) s = .next (answered s src) ∧
      le32 s.raw 6 = some dst ∧ exec (.get 0x25#8) s = .next (answered s dst) ∧
      le16 s.raw 10 = some dlen ∧ exec (.get 0x26#8) s = .next (answered s (0#16 ++ dlen)) ∧
      be16 s.raw 12 = some hck ∧ exec (.get 0x27#8) s = .next (answered s (0#16 ++ hck)) ∧
      s.raw[14]? = some sflags ∧ exec (.get 0x28#8) s = .next (answered s (0#24 ++ sflags)) ∧
      s.raw[15]? = some sid ∧ exec (.get 0x29#8) s = .next (answered s (0#24 ++ sid)) ∧
      le16 s.raw 16 = some otype ∧ exec (.get 0x2A#8) s = .next (answered s (BitVec.ofInt 32 otype.toInt)) ∧
      le32 s.raw 18 = some oid ∧ exec (.get 0x2B#8) s = .next (answered s oid) ∧
      le16 s.raw 22 = some pid ∧ exec (.get 0x2C#8) s = .next (answered s (BitVec.ofInt 32 pid.toInt)) ∧
      exec (.get 0x2D#8) s = .next (answered s (0#16 ++ (dlen - 10#16))) ∧
      be16 s.raw (24 + (dlen.toNat - 10)) = some dck ∧ exec (.get 0x2E#8) s = .next (answered s (0#16 ++ dck))

/-- GET RXFLG of a parsed frame: SOFOK, HCKOK, DCKOK, ISRSP, ISERR in bits 0 to 4 (R25). -/
def Obligations.GetReadsFrameFlags : Prop :=
  ∀ (s : State) (n : Nat) (sofb sflags : Byte) (hck dck : Half), Inv s → HoldsPayload s n →
    s.raw[0]? = some sofb → s.raw[14]? = some sflags →
    be16 s.raw 12 = some hck → be16 s.raw (24 + n) = some dck →
    exec (.get 0x2F#8) s = .next (answered s (BitVec.ofNat 32
      ((if sofb = 0xAA#8 then 1 else 0) +
       (if hck = checksum ((s.raw.drop 1).take 11) then 2 else 0) +
       (if dck = checksum ((s.raw.drop 14).take (10 + n)) then 4 else 0) +
       (if sflags = 0x02#8 ∨ sflags = 0x03#8 then 8 else 0) +
       (if sflags = 0x03#8 then 16 else 0))))

/-- Where GET faults: ERR_ILL for a number R26 does not assign, ERR_STATE for a frame field outside S_DONE; the encoding and
the must-be-zero bits of its word (R129). -/
def Obligations.GetFaultsWhereUndefined : Prop :=
  (∀ reg : BitVec 8, decode (0x020000000000#48 ||| (reg.setWidth 48 <<< 32)) = .ok (.get reg)) ∧
  (∀ (s : State) (reg : BitVec 8), reg ∉ assignedNumbers → exec (.get reg) s = .next (faulted s 1)) ∧
  (∀ (s : State) (reg : BitVec 8), reg ∈ frameNumbers → s.rxst ≠ .done → exec (.get reg) s = .next (faulted s 5)) ∧
  RefusesWords 0x02#8 (fun sub imm => imm = 0#32 ∧ sub ∈ assignedNumbers)

/-- SET (R130): the five descriptor registers, the signed range of the two 16-bit ones, ERR_ILL for every other number. -/
def Obligations.SetWritesDescriptor : Prop :=
  (∀ (reg : BitVec 8) (v : Word), decode (0x030000000000#48 ||| (reg.setWidth 48 <<< 32) ||| v.setWidth 48) = .ok (.set reg v)) ∧
  (∀ (s : State) (v : Word),
    exec (.set 0x00#8 v) s = .next (answered { s with tsrc := v } 0#32) ∧
    exec (.set 0x01#8 v) s = .next (answered { s with tdst := v } 0#32) ∧
    exec (.set 0x03#8 v) s = .next (answered { s with toid := v } 0#32) ∧
    (-32768 ≤ v.toInt ∧ v.toInt ≤ 32767 →
      exec (.set 0x02#8 v) s = .next (answered { s with totype := v.setWidth 16 } 0#32) ∧
      exec (.set 0x04#8 v) s = .next (answered { s with tpid := v.setWidth 16 } 0#32)) ∧
    (¬ (-32768 ≤ v.toInt ∧ v.toInt ≤ 32767) →
      exec (.set 0x02#8 v) s = .next (faulted s 3) ∧ exec (.set 0x04#8 v) s = .next (faulted s 3))) ∧
  (∀ (s : State) (reg : BitVec 8) (v : Word), reg ∉ writableNumbers → exec (.set reg v) s = .next (faulted s 1)) ∧
  RefusesWords 0x03#8 (fun sub _ => sub ∈ writableNumbers)

/-- GET after SET (R131): a successful SET of a register, then any commands but SRST and SETs of the same register, then GET
of it returns the value written, exactly. -/
def Obligations.GetAfterSetReturnsValue : Prop :=
  ∀ (s t u : State) (reg : BitVec 8) (v : Word) (is : List Instr),
    reg ∈ writableNumbers → exec (.set reg v) s = .next t → Succeeded t →
    (∀ i ∈ is, i ≠ .srst ∧ ∀ v', i ≠ .set reg v') → runAll is t = .next u →
    exec (.get reg) u = .next (answered u v)

/-! ## Checksum accumulator -/

/-- CSINIT (R81). -/
def Obligations.CsinitStartsChecksum : Prop :=
  decode 0x100000000000#48 = .ok .csinit ∧
  (∀ s : State, exec .csinit s = .next (answered { s with a := 0xFF#8, b := 0x00#8 } 0#32)) ∧
  RefusesWords 0x10#8 AllowedZ

/-- CSADD (R82): B adds the value A has after A has absorbed the byte; the response is the checksum so far. -/
def Obligations.CsaddAbsorbsByte : Prop :=
  (∀ v : Byte, decode (0x110000000000#48 ||| v.setWidth 48) = .ok (.csadd v)) ∧
  (∀ (s : State) (v : Byte), ∃ a1 b1 : Byte,
    a1.toNat = (s.a.toNat + v.toNat) % 256 ∧ b1.toNat = (s.b.toNat + a1.toNat) % 256 ∧
    exec (.csadd v) s = .next (answered { s with a := a1, b := b1 } (0#16 ++ a1 ++ b1))) ∧
  RefusesWords 0x11#8 AllowedI8

/-- CSRD (R83). -/
def Obligations.CsrdReturnsChecksum : Prop :=
  decode 0x120000000000#48 = .ok .csrd ∧
  (∀ s : State, exec .csrd s = .next (answered s (0#16 ++ s.a ++ s.b))) ∧
  RefusesWords 0x12#8 AllowedZ

/-- The three commands together (R84): after CSINIT and the CSADDs of a byte sequence, other commands that do not write A or B
anywhere between, A and B hold its checksum and CSRD returns it; the run with nothing between completes. -/
def Obligations.ChecksumOfAbsorbedSequence : Prop :=
  (∀ (s t : State) (is : List Instr) (bytes : Bytes),
    (∀ i ∈ is, writesAcc i = true → (csaddByte i).isSome = true) → is.filterMap csaddByte = bytes →
    runAll (.csinit :: is) s = .next t →
    t.a ++ t.b = checksum bytes ∧ exec .csrd t = .next (answered t (0#16 ++ checksum bytes))) ∧
  (∀ (s : State) (bytes : Bytes), ∃ t, runAll (.csinit :: bytes.map .csadd) s = .next t)

/-- The closed form of the checksum (R84, of the function of R80): A is 0xFF plus the sum of the bytes, B is n·0xFF plus the sum
of (n − i)·s[i], both modulo 256; for n zero bytes A = 0xFF and B = −n. -/
def Obligations.ChecksumHasClosedForm : Prop :=
  (∀ bytes : Bytes, (checksum bytes).toNat =
    256 * ((0xFF + ∑ i : Fin bytes.length, bytes[i].toNat) % 256) +
      (bytes.length * 0xFF + ∑ i : Fin bytes.length, (bytes.length - i.val) * bytes[i].toNat) % 256) ∧
  (∀ n : Nat, checksum (List.replicate n 0x00#8) = 0xFF#8 ++ (0#8 - BitVec.ofNat 8 n))

/-! ## Frame builder -/

/-- TXCLR (R86). -/
def Obligations.TxclrEmptiesPayload : Prop :=
  decode 0x200000000000#48 = .ok .txclr ∧
  (∀ s : State, exec .txclr s = .next (answered { s with txpay := [], txpk := .empty } 0#32)) ∧
  RefusesWords 0x20#8 AllowedZ

/-- BLDRD (R87, R89): with an empty or a multi-info payload, TXBUF becomes the frame with service id 0x01, the payload is
consumed, A and B hold the frame's data checksum; otherwise ERR_STATE and nothing is written but FLT. -/
def Obligations.BldrdBuildsReadRequest : Prop :=
  decode 0x210000000000#48 = .ok .bldrd ∧
  (∀ s : State, s.txpk = .empty ∨ s.txpk = .minfo → s.txpay.length ≤ s.maxpay →
    ∃ a1 b1 : Byte,
      be16 (frame 0x01#8 s.tsrc s.tdst s.totype s.toid s.tpid s.txpay) (24 + s.txpay.length) = some (a1 ++ b1) ∧
      exec .bldrd s = .next (answered
        { s with txbuf := frame 0x01#8 s.tsrc s.tdst s.totype s.toid s.tpid s.txpay,
                 txpay := [], txpk := .empty, a := a1, b := b1 } (BitVec.ofNat 32 (26 + s.txpay.length)))) ∧
  (∀ s : State, s.txpk = .value ∨ s.txpk = .abort → exec .bldrd s = .next (faulted s 5)) ∧
  RefusesWords 0x21#8 AllowedZ

/-- BLDWR (R88, R89): with one encoded value, TXBUF becomes the frame with service id 0x02; otherwise ERR_STATE. -/
def Obligations.BldwrBuildsWriteRequest : Prop :=
  decode 0x220000000000#48 = .ok .bldwr ∧
  (∀ s : State, s.txpk = .value → s.txpay.length ≤ s.maxpay →
    ∃ a1 b1 : Byte,
      be16 (frame 0x02#8 s.tsrc s.tdst s.totype s.toid s.tpid s.txpay) (24 + s.txpay.length) = some (a1 ++ b1) ∧
      exec .bldwr s = .next (answered
        { s with txbuf := frame 0x02#8 s.tsrc s.tdst s.totype s.toid s.tpid s.txpay,
                 txpay := [], txpk := .empty, a := a1, b := b1 } (BitVec.ofNat 32 (26 + s.txpay.length)))) ∧
  (∀ s : State, s.txpk ≠ .value → exec .bldwr s = .next (faulted s 5)) ∧
  RefusesWords 0x22#8 AllowedZ

/-- The wire layout of a built frame (R65): every field at its offset, in its byte order, both checksums over their sections. -/
def Obligations.BuiltFrameHasWireLayout : Prop :=
  ∀ (sid : Byte) (src dst : Word) (otype : Half) (oid : Word) (pid : Half) (pay f : Bytes),
    pay.length ≤ 32757 → f = frame sid src dst otype oid pid pay →
    f.length = 26 + pay.length ∧
    f[0]? = some 0xAA#8 ∧ f[1]? = some 0x00#8 ∧
    le32 f 2 = some src ∧ le32 f 6 = some dst ∧
    (∃ d : Half, le16 f 10 = some d ∧ d.toNat = 10 + pay.length) ∧
    be16 f 12 = some (checksum ((f.drop 1).take 11)) ∧
    f[14]? = some 0x00#8 ∧ f[15]? = some sid ∧
    le16 f 16 = some otype ∧ le32 f 18 = some oid ∧ le16 f 22 = some pid ∧
    (f.drop 24).take pay.length = pay ∧
    be16 f (24 + pay.length) = some (checksum ((f.drop 14).take (10 + pay.length)))

/-- TXRAW (R90): the byte at the index, or ERR_SHORT at and beyond TXLEN. -/
def Obligations.TxrawReadsBuiltFrame : Prop :=
  (∀ i : Half, decode (0x230000000000#48 ||| i.setWidth 48) = .ok (.txraw i)) ∧
  (∀ (s : State) (i : Half) (v : Byte), s.txbuf[i.toNat]? = some v → exec (.txraw i) s = .next (answered s (0#24 ++ v))) ∧
  (∀ (s : State) (i : Half), s.txbuf.length ≤ i.toNat → exec (.txraw i) s = .next (faulted s 7)) ∧
  RefusesWords 0x23#8 AllowedI16

/-- Round trip (R91): after a successful build, a freshly reset parser fed the bytes of TXBUF ends in S_DONE, and GET of the
frame's fields returns the descriptor, the payload and RXFLG = 0b00111. -/
def Obligations.BuildParseRoundTrip : Prop :=
  ∀ (s t : State) (i : Instr) (sid : Byte), Inv s → (i = .bldrd ∧ sid = 0x01#8 ∨ i = .bldwr ∧ sid = 0x02#8) →
    exec i s = .next t → Succeeded t →
    ∃ u, runAll (.rxrst :: t.txbuf.map .rxb) t = .next u ∧
      u.rxst = .done ∧ u.raw = t.txbuf ∧
      exec (.get 0x24#8) u = .next (answered u s.tsrc) ∧
      exec (.get 0x25#8) u = .next (answered u s.tdst) ∧
      exec (.get 0x2A#8) u = .next (answered u (BitVec.ofInt 32 s.totype.toInt)) ∧
      exec (.get 0x2B#8) u = .next (answered u s.toid) ∧
      exec (.get 0x2C#8) u = .next (answered u (BitVec.ofInt 32 s.tpid.toInt)) ∧
      exec (.get 0x29#8) u = .next (answered u (0#24 ++ sid)) ∧
      exec (.get 0x28#8) u = .next (answered u 0#32) ∧
      exec (.get 0x23#8) u = .next (answered u 0#32) ∧
      exec (.get 0x26#8) u = .next (answered u (BitVec.ofNat 32 (10 + s.txpay.length))) ∧
      exec (.get 0x2D#8) u = .next (answered u (BitVec.ofNat 32 s.txpay.length)) ∧
      (u.raw.drop 24).take s.txpay.length = s.txpay ∧
      exec (.get 0x2F#8) u = .next (answered u 7#32)

/-! ## Frame parser -/

/-- RXRST (R93): legal in every parser state. -/
def Obligations.RxrstStartsFrame : Prop :=
  decode 0x300000000000#48 = .ok .rxrst ∧
  (∀ s : State, exec .rxrst s = .next (answered { s with raw := [], rxst := .sof, pval := 0#32, ptag := .none } 0#32)) ∧
  RefusesWords 0x30#8 AllowedZ

/-- RXB (R94) with the transition table of R95, row by row: `p` is RXPOS, the offset the byte takes, and `d` the data size. -/
def Obligations.RxbFollowsTransitionTable : Prop :=
  (∀ v : Byte, decode (0x310000000000#48 ||| v.setWidth 48) = .ok (.rxb v)) ∧
  (∀ (s : State) (v : Byte), s.raw.length < 26 + s.maxpay →
    (s.rxst = .sof → s.raw.length = 0 →
      exec (.rxb v) s = .next (answered { s with raw := s.raw ++ [v], rxst := .hdr } 1#32)) ∧
    (s.rxst = .hdr → 1 ≤ s.raw.length → s.raw.length ≤ 10 →
      exec (.rxb v) s = .next (answered { s with raw := s.raw ++ [v], rxst := .hdr } 1#32)) ∧
    (∀ d : Half, s.rxst = .hdr → s.raw.length = 11 → le16 (s.raw ++ [v]) 10 = some d →
      (10 ≤ d.toNat ∧ d.toNat ≤ 10 + s.maxpay →
        exec (.rxb v) s = .next (answered { s with raw := s.raw ++ [v], rxst := .hck } 2#32)) ∧
      (d.toNat < 10 ∨ 10 + s.maxpay < d.toNat →
        exec (.rxb v) s = .next (faulted { s with raw := s.raw ++ [v], rxst := .fault } 6))) ∧
    (s.rxst = .hck → s.raw.length = 12 →
      exec (.rxb v) s = .next (answered { s with raw := s.raw ++ [v], rxst := .hck } 2#32)) ∧
    (s.rxst = .hck → s.raw.length = 13 →
      exec (.rxb v) s = .next (answered { s with raw := s.raw ++ [v], rxst := .data } 3#32)) ∧
    (∀ d : Half, le16 s.raw 10 = some d →
      (s.rxst = .data → 14 ≤ s.raw.length → s.raw.length ≤ 12 + d.toNat →
        exec (.rxb v) s = .next (answered { s with raw := s.raw ++ [v], rxst := .data } 3#32)) ∧
      (s.rxst = .data → s.raw.length = 13 + d.toNat →
        exec (.rxb v) s = .next (answered { s with raw := s.raw ++ [v], rxst := .dck } 4#32)) ∧
      (s.rxst = .dck → s.raw.length = 14 + d.toNat →
        exec (.rxb v) s = .next (answered { s with raw := s.raw ++ [v], rxst := .dck } 4#32)) ∧
      (s.rxst = .dck → s.raw.length = 15 + d.toNat →
        exec (.rxb v) s = .next (answered { s with raw := s.raw ++ [v], rxst := .done } 5#32)))) ∧
  (∀ (s : State) (v : Byte), s.rxst = .done ∨ s.rxst = .fault → exec (.rxb v) s = .next (faulted s 5)) ∧
  RefusesWords 0x31#8 AllowedI8

/-- Where RXDEC faults before it looks at a payload, and the order of these checks (R100): ERR_FMT, ERR_STATE, ERR_SFLAGS. -/
def Obligations.RxdecChecksInOrder : Prop :=
  (∀ (rd : Bool) (fmt : BitVec 4), decode (0x320000000000#48 ||| ((BitVec.ofBool rd).setWidth 48 <<< 36) ||| (fmt.setWidth 48 <<< 32)) =
    .ok (.rxdec rd fmt)) ∧
  (∀ (s : State) (rd : Bool) (fmt : BitVec 4), 6 ≤ fmt.toNat → exec (.rxdec rd fmt) s = .next (faulted s 2)) ∧
  (∀ (s : State) (rd : Bool) (fmt : BitVec 4), fmt.toNat ≤ 5 → s.rxst ≠ .done →
    exec (.rxdec rd fmt) s = .next (faulted s 5)) ∧
  (∀ (s : State) (rd : Bool) (fmt : BitVec 4) (sflags : Byte), fmt.toNat ≤ 5 → s.rxst = .done → s.raw[14]? = some sflags →
    sflags ≠ 0x00#8 → sflags ≠ 0x02#8 → sflags ≠ 0x03#8 → exec (.rxdec rd fmt) s = .next (faulted s 9)) ∧
  RefusesWords 0x32#8 AllowedF

/-- What RXDEC decodes (R98 to R100): the absent payload, the byte-stream's record count, and each fixed-width format at the
width its direction and `rd` select, two-byte integers sign-extended; ERR_SHORT below the width, ERR_VALUE for a bool byte
other than 0 and 1. -/
def Obligations.RxdecDecodesPayload : Prop :=
  ∀ (s : State) (rd : Bool) (fmt : BitVec 4) (sflags : Byte) (n w : Nat), fmt.toNat ≤ 5 → HoldsPayload s n →
    s.raw[14]? = some sflags → (sflags = 0x00#8 ∨ sflags = 0x02#8 ∨ sflags = 0x03#8) →
    w = (if fmt = 0#4 then 1 else if fmt = 1#4 then 2 else if fmt = 4#4 then 4
      else if sflags = 0x00#8 then 4 else if rd then 4 else 2) →
    (n = 0 → exec (.rxdec rd fmt) s = .next (answered { s with pval := 0#32, ptag := .absent } 0#32)) ∧
    (0 < n → fmt = 5#4 → exec (.rxdec rd fmt) s = .next
      (answered { s with pval := BitVec.ofNat 32 (if n < 8 then 0 else (n - 8) / 7), ptag := .bstream }
        (BitVec.ofNat 32 (if n < 8 then 0 else (n - 8) / 7)))) ∧
    (0 < n → n < w → fmt ≠ 5#4 → exec (.rxdec rd fmt) s = .next (faulted s 7)) ∧
    (∀ b0 : Byte, 0 < n → fmt = 0#4 → s.raw[24]? = some b0 → exec (.rxdec rd fmt) s = .next
      (if b0 = 0x00#8 ∨ b0 = 0x01#8 then answered { s with pval := 0#24 ++ b0, ptag := .bool } (0#24 ++ b0) else faulted s 4)) ∧
    (∀ h : Half, w = 2 → w ≤ n → fmt ≠ 5#4 → le16 s.raw 24 = some h → exec (.rxdec rd fmt) s = .next
      (answered { s with pval := BitVec.ofInt 32 h.toInt, ptag := .int } (BitVec.ofInt 32 h.toInt))) ∧
    (∀ v : Word, w = 4 → w ≤ n → fmt ≠ 5#4 → le32 s.raw 24 = some v → exec (.rxdec rd fmt) s = .next
      (answered { s with pval := v, ptag := if fmt = 4#4 then .float else .int } v))

/-- RXERR (R101): the big-endian error code of an error response; ERR_STATE, ERR_SFLAGS, ERR_SHORT in this order. -/
def Obligations.RxerrReturnsErrorCode : Prop :=
  decode 0x330000000000#48 = .ok .rxerr ∧
  (∀ s : State, s.rxst ≠ .done → exec .rxerr s = .next (faulted s 5)) ∧
  (∀ (s : State) (sflags : Byte), s.rxst = .done → s.raw[14]? = some sflags → sflags ≠ 0x03#8 →
    exec .rxerr s = .next (faulted s 9)) ∧
  (∀ (s : State) (n : Nat), HoldsPayload s n → s.raw[14]? = some 0x03#8 → n < 2 → exec .rxerr s = .next (faulted s 7)) ∧
  (∀ (s : State) (n : Nat) (b0 b1 : Byte), HoldsPayload s n → s.raw[14]? = some 0x03#8 → 2 ≤ n →
    s.raw[24]? = some b0 → s.raw[25]? = some b1 → exec .rxerr s = .next (answered s (0#16 ++ b0 ++ b1))) ∧
  RefusesWords 0x33#8 AllowedZ

/-- RXRAW (R103): the byte at the index in every parser state, or ERR_SHORT at and beyond RXPOS. -/
def Obligations.RxrawReadsReceivedBytes : Prop :=
  (∀ i : Half, decode (0x340000000000#48 ||| i.setWidth 48) = .ok (.rxraw i)) ∧
  (∀ (s : State) (i : Half) (v : Byte), s.raw[i.toNat]? = some v → exec (.rxraw i) s = .next (answered s (0#24 ++ v))) ∧
  (∀ (s : State) (i : Half), s.raw.length ≤ i.toNat → exec (.rxraw i) s = .next (faulted s 7)) ∧
  RefusesWords 0x34#8 AllowedI16

/-! ## Value codec -/

/-- VENC (R106, R107): the encoding of each format becomes TXPAY; ERR_FMT, ERR_STATE, ERR_RANGE in this order. -/
def Obligations.VencEncodesValue : Prop :=
  (∀ (fmt : BitVec 4) (v : Word), decode (0x400000000000#48 ||| (fmt.setWidth 48 <<< 32) ||| v.setWidth 48) = .ok (.venc fmt v)) ∧
  (∀ (s : State) (fmt : BitVec 4) (v : Word), 5 ≤ fmt.toNat → exec (.venc fmt v) s = .next (faulted s 2)) ∧
  (∀ (s : State) (fmt : BitVec 4) (v : Word), fmt.toNat ≤ 4 → s.txpk ≠ .empty → exec (.venc fmt v) s = .next (faulted s 5)) ∧
  (∀ (s : State) (v : Word), s.txpk = .empty → 8 ≤ s.maxpay →
    exec (.venc 0#4 v) s = .next
      (if v = 0#32 ∨ v = 1#32 then answered { s with txpay := [v.extractLsb' 0 8], txpk := .value } 1#32 else faulted s 3) ∧
    exec (.venc 1#4 v) s = .next
      (if -32768 ≤ v.toInt ∧ v.toInt ≤ 32767
        then answered { s with txpay := [v.extractLsb' 0 8, v.extractLsb' 8 8], txpk := .value } 2#32 else faulted s 3) ∧
    (∀ fmt : BitVec 4, fmt = 2#4 ∨ fmt = 3#4 ∨ fmt = 4#4 → exec (.venc fmt v) s = .next
      (answered { s with txpay := [v.extractLsb' 0 8, v.extractLsb' 8 8, v.extractLsb' 16 8, v.extractLsb' 24 8],
                         txpk := .value } 4#32))) ∧
  RefusesWords 0x40#8 AllowedFI

/-- VDEC (R108, R109): each format at its encode width; ERR_FMT, ERR_RANGE, ERR_VALUE in this order. -/
def Obligations.VdecDecodesOperand : Prop :=
  (∀ (fmt : BitVec 4) (v : Word), decode (0x410000000000#48 ||| (fmt.setWidth 48 <<< 32) ||| v.setWidth 48) = .ok (.vdec fmt v)) ∧
  (∀ (s : State) (fmt : BitVec 4) (v : Word), 5 ≤ fmt.toNat → exec (.vdec fmt v) s = .next (faulted s 2)) ∧
  (∀ (s : State) (v : Word),
    exec (.vdec 0#4 v) s = .next
      (if 256 ≤ v.toNat then faulted s 3 else if v = 0#32 ∨ v = 1#32 then answered s v else faulted s 4) ∧
    exec (.vdec 1#4 v) s = .next
      (if 65536 ≤ v.toNat then faulted s 3 else answered s (BitVec.ofInt 32 (v.setWidth 16).toInt)) ∧
    (∀ fmt : BitVec 4, fmt = 2#4 ∨ fmt = 3#4 ∨ fmt = 4#4 → exec (.vdec fmt v) s = .next (answered s v))) ∧
  RefusesWords 0x41#8 AllowedFI

/-- The value round trip in commands (R110): if VENC of a format succeeds on `v`, VDEC of the same format applied to the bytes
it emitted, packed least significant first, returns `v`. -/
def Obligations.ValueRoundTripsThroughVdec : Prop :=
  ∀ (s t u : State) (fmt : BitVec 4) (v packed : Word), exec (.venc fmt v) s = .next t → Succeeded t →
    packed.toNat = (t.txpay.zipIdx.map fun p => p.1.toNat * 256 ^ p.2).sum →
    exec (.vdec fmt packed) u = .next (answered u v)

/-- The value round trip through a frame (R110): VENC, BLDWR, the frame fed back to a reset parser, RXDEC of the same format with
either `rd` gives PVAL = `v`. -/
def Obligations.ValueRoundTripsThroughFrame : Prop :=
  ∀ (s t : State) (fmt : BitVec 4) (v : Word) (rd : Bool), Inv s → exec (.venc fmt v) s = .next t → Succeeded t →
    ∃ b u x, exec .bldwr t = .next b ∧ runAll (.rxrst :: b.txbuf.map .rxb) b = .next u ∧
      exec (.rxdec rd fmt) u = .next x ∧ Succeeded x ∧ x.pval = v

/-! ## Multi-info -/

/-- MIADD (R113): one group appended; ERR_STATE changes nothing else, ERR_LEN and, after it, ERR_ASM abort the request. -/
def Obligations.MiaddAppendsGroup : Prop :=
  (∀ (id : Byte) (ref : Half), decode (0x500000000000#48 ||| (id.setWidth 48 <<< 16) ||| ref.setWidth 48) = .ok (.miadd id ref)) ∧
  (∀ (s : State) (id : Byte) (ref : Half), s.txpk = .empty ∨ s.txpk = .minfo →
    (s.maxpay < s.txpay.length + 3 →
      exec (.miadd id ref) s = .next (faulted { s with txpay := [], txpk := .abort } 6)) ∧
    (s.txpay.length + 3 ≤ s.maxpay → 16 ≤ id.toNat → id.toNat ≠ 253 → id.toNat ≠ 254 →
      exec (.miadd id ref) s = .next (faulted { s with txpay := [], txpk := .abort } 8)) ∧
    (s.txpay.length + 3 ≤ s.maxpay → id.toNat ≤ 15 ∨ id.toNat = 253 ∨ id.toNat = 254 →
      exec (.miadd id ref) s = .next (answered
        { s with txpay := s.txpay ++ [ref.extractLsb' 0 8, ref.extractLsb' 8 8, id], txpk := .minfo }
        (BitVec.ofNat 32 (s.txpay.length + 3))))) ∧
  (∀ (s : State) (id : Byte) (ref : Half), s.txpk = .value ∨ s.txpk = .abort →
    exec (.miadd id ref) s = .next (faulted s 5)) ∧
  RefusesWords 0x50#8 AllowedM

/-- After an aborted multi-info request MIADD, VENC of a supported format, BLDRD and BLDWR all fault with ERR_STATE and leave
TXBUF readable, until TXCLR, after which MIADD is accepted again (R162, R113). -/
def Obligations.AbortLocksBuilderUntilTxclr : Prop :=
  ∀ (s t : State) (id : Byte) (ref : Half), exec (.miadd id ref) s = .next t → FaultedWith t 6 ∨ FaultedWith t 8 →
    t.txpk = .abort ∧ t.txpay = [] ∧ t.txbuf = s.txbuf ∧
    (∀ id' ref', exec (.miadd id' ref') t = .next (faulted t 5)) ∧
    (∀ fmt v, fmt.toNat ≤ 4 → exec (.venc fmt v) t = .next (faulted t 5)) ∧
    exec .bldrd t = .next (faulted t 5) ∧ exec .bldwr t = .next (faulted t 5) ∧
    (∃ u, exec .txclr t = .next u ∧ u.txpk = .empty ∧
      (3 ≤ s.maxpay → ∀ ref', ∃ v, exec (.miadd 0#8 ref') u = .next v ∧ Succeeded v))

/-- ASMCLS (R114, R115): the id with its class in bits 18..16, unknown ids answered. -/
def Obligations.AsmclsClassifiesId : Prop :=
  (∀ id : Byte, decode (0x510000000000#48 ||| id.setWidth 48) = .ok (.asmcls id)) ∧
  (∀ (s : State) (id : Byte), exec (.asmcls id) s = .next (answered s (BitVec.ofNat 32
    ((if id.toNat = 0 then 0 else if id.toNat ≤ 15 then 1 else if id.toNat = 253 then 2 else if id.toNat = 254 then 3 else 7) * 65536
      + id.toNat)))) ∧
  RefusesWords 0x51#8 AllowedI8

/-- A multi-info read request, whole (R116): after MIADDs of valid groups that fit, from PK_EMPTY, BLDRD builds the frame whose
payload is the groups in order, of length 26 + 3k. -/
def Obligations.MultiInfoReadBuildsAllGroups : Prop :=
  ∀ (s : State) (groups : List (Byte × Half)), Inv s → s.txpk = .empty → groups.length * 3 ≤ s.maxpay →
    (∀ g ∈ groups, g.1.toNat ≤ 15 ∨ g.1.toNat = 253 ∨ g.1.toNat = 254) →
    ∃ t u, runAll (groups.map fun g => .miadd g.1 g.2) s = .next t ∧ exec .bldrd t = .next u ∧
      u.txbuf = frame 0x01#8 s.tsrc s.tdst s.totype s.toid s.tpid
        (groups.flatMap fun g => [g.2.extractLsb' 0 8, g.2.extractLsb' 8 8, g.1]) ∧
      u.txbuf.length = 26 + 3 * groups.length ∧ u.rsp = some ⟨0x00#8, BitVec.ofNat 32 (26 + 3 * groups.length)⟩

/-! ## Byte-stream -/

/-- BSFLG (R119): the context word, of a payload of at least 8 bytes; its named bits are those of context bytes 0 and 1. -/
def Obligations.BsflgReturnsContextWord : Prop :=
  decode 0x600000000000#48 = .ok .bsflg ∧
  (∀ (s : State) (n : Nat) (v : Word), HoldsPayload s n → 8 ≤ n → le32 s.raw 24 = some v →
    exec .bsflg s = .next (answered s v)) ∧
  (∀ (s : State) (v : Word) (c0 c1 : Byte), s.raw[24]? = some c0 → s.raw[25]? = some c1 → le32 s.raw 24 = some v →
    contextVersion v = c0.extractLsb' 0 4 ∧ contextIsGsm v = c0.getLsbD 4 ∧ contextXt v = c0.getLsbD 5 ∧
    contextBsp v = c0.getLsbD 6 ∧ contextVt v = c0.getLsbD 7 ∧ contextVs v = c1.getLsbD 0) ∧
  (∀ (s : State) (n : Nat), HoldsPayload s n → n < 8 → exec .bsflg s = .next (faulted s 7)) ∧
  (∀ s : State, s.rxst ≠ .done → exec .bsflg s = .next (faulted s 5)) ∧
  RefusesWords 0x60#8 AllowedZ

/-- BSTIME (R120): the raw timestamp, of a payload of at least 8 bytes. -/
def Obligations.BstimeReturnsTimestamp : Prop :=
  decode 0x610000000000#48 = .ok .bstime ∧
  (∀ (s : State) (n : Nat) (v : Word), HoldsPayload s n → 8 ≤ n → le32 s.raw 28 = some v →
    exec .bstime s = .next (answered s v)) ∧
  (∀ (s : State) (n : Nat), HoldsPayload s n → n < 8 → exec .bstime s = .next (faulted s 7)) ∧
  (∀ s : State, s.rxst ≠ .done → exec .bstime s = .next (faulted s 5)) ∧
  RefusesWords 0x61#8 AllowedZ

/-- BSCNT (R118, R121): the number of whole records; a payload below 8 bytes has none. -/
def Obligations.BscntCountsRecords : Prop :=
  decode 0x620000000000#48 = .ok .bscnt ∧
  (∀ (s : State) (n : Nat), HoldsPayload s n →
    exec .bscnt s = .next (answered s (BitVec.ofNat 32 (if n < 8 then 0 else (n - 8) / 7)))) ∧
  (∀ s : State, s.rxst ≠ .done → exec .bscnt s = .next (faulted s 5)) ∧
  RefusesWords 0x62#8 AllowedZ

/-- BSREF (R122): record i exists when 8 + 7·(i + 1) ≤ N; its reference is the little-endian word at 32 + 7·i. -/
def Obligations.BsrefReturnsReference : Prop :=
  (∀ i : Half, decode (0x630000000000#48 ||| i.setWidth 48) = .ok (.bsref i)) ∧
  (∀ (s : State) (n : Nat) (i v : Half), HoldsPayload s n → 8 + 7 * (i.toNat + 1) ≤ n → le16 s.raw (32 + 7 * i.toNat) = some v →
    exec (.bsref i) s = .next (answered s (0#16 ++ v))) ∧
  (∀ (s : State) (n : Nat) (i : Half), HoldsPayload s n → n < 8 + 7 * (i.toNat + 1) → exec (.bsref i) s = .next (faulted s 7)) ∧
  (∀ (s : State) (i : Half), s.rxst ≠ .done → exec (.bsref i) s = .next (faulted s 5)) ∧
  RefusesWords 0x63#8 AllowedI16

/-- BSAGG (R123): the aggregation id at 34 + 7·i with its class, unknown ids answered. -/
def Obligations.BsaggReturnsClassifiedId : Prop :=
  (∀ i : Half, decode (0x640000000000#48 ||| i.setWidth 48) = .ok (.bsagg i)) ∧
  (∀ (s : State) (n : Nat) (i : Half) (id : Byte), HoldsPayload s n → 8 + 7 * (i.toNat + 1) ≤ n →
    s.raw[34 + 7 * i.toNat]? = some id → exec (.bsagg i) s = .next (answered s (BitVec.ofNat 32
    ((if id.toNat = 0 then 0 else if id.toNat ≤ 15 then 1 else if id.toNat = 253 then 2 else if id.toNat = 254 then 3 else 7) * 65536
      + id.toNat)))) ∧
  (∀ (s : State) (n : Nat) (i : Half), HoldsPayload s n → n < 8 + 7 * (i.toNat + 1) → exec (.bsagg i) s = .next (faulted s 7)) ∧
  (∀ (s : State) (i : Half), s.rxst ≠ .done → exec (.bsagg i) s = .next (faulted s 5)) ∧
  RefusesWords 0x64#8 AllowedI16

/-- BSVAL (R124): the value at 35 + 7·i, its pattern unchanged. -/
def Obligations.BsvalReturnsValue : Prop :=
  (∀ i : Half, decode (0x650000000000#48 ||| i.setWidth 48) = .ok (.bsval i)) ∧
  (∀ (s : State) (n : Nat) (i : Half) (v : Word), HoldsPayload s n → 8 + 7 * (i.toNat + 1) ≤ n →
    le32 s.raw (35 + 7 * i.toNat) = some v → exec (.bsval i) s = .next (answered s v)) ∧
  (∀ (s : State) (n : Nat) (i : Half), HoldsPayload s n → n < 8 + 7 * (i.toNat + 1) → exec (.bsval i) s = .next (faulted s 7)) ∧
  (∀ (s : State) (i : Half), s.rxst ≠ .done → exec (.bsval i) s = .next (faulted s 5)) ∧
  RefusesWords 0x65#8 AllowedI16

/-- The six commands read RAW and RXST only: two states that agree on these two are answered alike (R125), and RXDEC.byte_stream
of a payload sets PVAL to the number BSCNT returns. -/
def Obligations.ByteStreamReadsOnlyRawAndState : Prop :=
  (∀ (s s' t t' : State) (i : Instr), i = .bsflg ∨ i = .bstime ∨ i = .bscnt ∨ (∃ n, i = .bsref n ∨ i = .bsagg n ∨ i = .bsval n) →
    s.raw = s'.raw → s.rxst = s'.rxst → exec i s = .next t → exec i s' = .next t' → t.rsp = t'.rsp) ∧
  (∀ (s t u : State) (rd : Bool), exec (.rxdec rd 5#4) s = .next t → Succeeded t → exec .bscnt s = .next u →
    u.rsp = some ⟨0x00#8, t.pval⟩)

/-! ## The whole machine -/

/-- The reset state satisfies the invariant of R33. Its parameter is the spec's default, and that it stands in the state is the
model's choice (log entry 1). -/
def Obligations.ResetSatisfiesInvariant : Prop := Inv State.reset

/-- Every step keeps the invariant of R33. -/
def Obligations.StepKeepsInvariant : Prop :=
  ∀ s t : State, Inv s → step s = .next t → Inv t

/-- Every word has a defined result (R154): a step from a state of the invariant always answers a next state; it consumes exactly
the word presented and answers with status 0x00 or one of the nine codes, with data 0 on a fault (R59, R134). The list of words and the kept response
and the parameter, kept as a field, are the model's (log entries 1, 2 and 3). -/
def Obligations.EveryWordHasDefinedResult : Prop :=
  ∀ (s : State) (w : CmdWord) (rest : List CmdWord), Inv s → s.cmds = w :: rest →
    ∃ t, step s = .next t ∧ t.cmds = rest ∧ t.maxpay = s.maxpay ∧
      (Succeeded t ∨ ∃ c, 1 ≤ c ∧ c ≤ 9 ∧ FaultedWith t c)

/-- Faults are precise (R133): a command that faults with code `c` sets bit `c` of FLT and changes nothing else, with the two
exceptions: RXB with ERR_LEN, MIADD with ERR_LEN or ERR_ASM. -/
def Obligations.FaultsArePrecise : Prop :=
  ∀ (s t : State) (i : Instr) (r : Response), exec i s = .next t → t.rsp = some r → r.status ≠ 0x00#8 →
    ∃ c, 1 ≤ c ∧ c ≤ 9 ∧ r = ⟨BitVec.ofNat 8 c, 0#32⟩ ∧
      (t = faulted s c ∨
        (∃ v, i = .rxb v ∧ c = 6 ∧ t = faulted { s with raw := s.raw ++ [v], rxst := .fault } 6) ∨
        (∃ id ref, i = .miadd id ref ∧ (c = 6 ∨ c = 8) ∧ t = faulted { s with txpay := [], txpk := .abort } c))

/-- Each command raises only the faults of its row of R137. -/
def Obligations.CommandsRaiseOnlyListedFaults : Prop :=
  ∀ (s t : State) (i : Instr), exec i s = .next t → Succeeded t ∨ ∃ c ∈ possibleFaults i, FaultedWith t c

/-- The sticky fault record (R29): a step sets bit `c` of FLT when its command ends with fault code `c`, and a step whose word is
not SRST clears no bit. -/
def Obligations.FaultRecordIsSticky : Prop :=
  (∀ (s t : State) (w : CmdWord) (rest : List CmdWord) (c : Nat), s.cmds = w :: rest → step s = .next t →
    1 ≤ c → c ≤ 9 → FaultedWith t c → t.flt.getLsbD c = true) ∧
  (∀ (s t : State) (k : Nat), (∀ rest, s.cmds ≠ 0x010000000000#48 :: rest) → step s = .next t →
    s.flt.getLsbD k = true → t.flt.getLsbD k = true)

/-- GET, CSRD, RXRAW, TXRAW, RXERR, VDEC, ASMCLS and the six BS commands (and NOP) change no state when they succeed, and return
the same response when repeated (R46). -/
def Obligations.ReadCommandsHaveNoSideEffect : Prop :=
  ∀ (s t : State) (i : Instr), readsOnly i = true → exec i s = .next t → Succeeded t →
    t = { s with rsp := t.rsp } ∧ exec i t = .next t

/-- The column "written by" of R13, SRST aside: each of the fifteen elements changes only under the commands listed for it; FLT,
written by "any faulting command", is kept by every command that succeeds. That no command writes the parameter and the host's
words is said of the model's own fields (log entries 1 and 2). -/
def Obligations.OnlyListedWritersChangeState : Prop :=
  ∀ (s t : State) (i : Instr), exec i s = .next t → i ≠ .srst →
    (writesAcc i = false → t.a = s.a ∧ t.b = s.b) ∧
    ((∀ reg v, i ≠ .set reg v) →
      t.tsrc = s.tsrc ∧ t.tdst = s.tdst ∧ t.totype = s.totype ∧ t.toid = s.toid ∧ t.tpid = s.tpid) ∧
    (i ≠ .txclr ∧ i ≠ .bldrd ∧ i ≠ .bldwr ∧ (∀ fmt v, i ≠ .venc fmt v) ∧ (∀ id ref, i ≠ .miadd id ref) →
      t.txpay = s.txpay ∧ t.txpk = s.txpk) ∧
    (i ≠ .bldrd ∧ i ≠ .bldwr → t.txbuf = s.txbuf) ∧
    (i ≠ .rxrst ∧ (∀ v, i ≠ .rxb v) → t.raw = s.raw ∧ t.rxst = s.rxst) ∧
    (i ≠ .rxrst ∧ (∀ rd fmt, i ≠ .rxdec rd fmt) → t.pval = s.pval ∧ t.ptag = s.ptag) ∧
    (Succeeded t → t.flt = s.flt) ∧
    t.maxpay = s.maxpay ∧ t.cmds = s.cmds

/-- No store reaches an arbitrary index (R168): a byte in RAW stays what it is until RXRST or SRST, whatever is appended after it,
and RAW does not change at all once S_DONE is reached (R22). -/
def Obligations.ReceivedBytesNeverChange : Prop :=
  ∀ (s t : State) (i : Instr), exec i s = .next t → i ≠ .rxrst → i ≠ .srst →
    (∀ k, k < s.raw.length → t.raw[k]? = s.raw[k]?) ∧ (s.rxst = .done → t.raw = s.raw)

/-- Neither checksum, nor the start marker, nor the frame flags, nor the service id stops or changes a decode (R160, R25, R68): two whole frames that
differ only in these are answered alike by RXDEC, RXERR and the byte-stream commands. -/
def Obligations.DecodeIgnoresChecksumsAndMarker : Prop :=
  ∀ (s : State) (n : Nat) (raw' : Bytes) (i : Instr) (t t' : State), Inv s → HoldsPayload s n → raw'.length = s.raw.length →
    (∀ k, k ≠ 0 → k ≠ 1 → k ≠ 12 → k ≠ 13 → k ≠ 15 → k < 24 + n → raw'[k]? = s.raw[k]?) →
    (i = .rxerr ∨ (∃ rd fmt, i = .rxdec rd fmt) ∨ i = .bsflg ∨ i = .bstime ∨ i = .bscnt ∨
      (∃ m, i = .bsref m ∨ i = .bsagg m ∨ i = .bsval m)) →
    exec i s = .next t → exec i { s with raw := raw' } = .next t' →
    t.rsp = t'.rsp ∧ t.pval = t'.pval ∧ t.ptag = t'.ptag

/-- The byte readers (R9): little-endian and big-endian values as numbers. -/
def Obligations.ByteReadersFollowWireOrder : Prop :=
  (∀ (f : Bytes) (k : Nat) (b0 b1 : Byte), f[k]? = some b0 → f[k + 1]? = some b1 →
    (∃ v, le16 f k = some v ∧ v.toNat = b0.toNat + 256 * b1.toNat) ∧
    (∃ v, be16 f k = some v ∧ v.toNat = 256 * b0.toNat + b1.toNat)) ∧
  (∀ (f : Bytes) (k : Nat) (b0 b1 b2 b3 : Byte), f[k]? = some b0 → f[k + 1]? = some b1 → f[k + 2]? = some b2 → f[k + 3]? = some b3 →
    ∃ v, le32 f k = some v ∧ v.toNat = b0.toNat + 256 * b1.toNat + 65536 * b2.toNat + 16777216 * b3.toNat)

/-- The commands that write a byte buffer store exactly where the rule says (R168): RXB its byte at RXPOS, MIADD its three bytes at
TXPLEN, VENC its 1, 2 or 4 bytes, least significant first, as the whole of TXPAY from index 0, the builds the frame as the whole of
TXBUF; a byte already in a buffer that is appended to reads as before, and no other buffer changes but TXPAY, which a build empties. -/
def Obligations.StoresLeaveEarlierBytes : Prop :=
  ∀ (s t : State),
    (∀ v, exec (.rxb v) s = .next t → ¬ FaultedWith t 5 →
      t.raw.length = s.raw.length + 1 ∧ t.raw[s.raw.length]? = some v ∧ (∀ k, k < s.raw.length → t.raw[k]? = s.raw[k]?) ∧
      t.txpay = s.txpay ∧ t.txbuf = s.txbuf) ∧
    (∀ id ref, exec (.miadd id ref) s = .next t → Succeeded t →
      t.txpay.length = s.txpay.length + 3 ∧ le16 t.txpay s.txpay.length = some ref ∧ t.txpay[s.txpay.length + 2]? = some id ∧
      (∀ k, k < s.txpay.length → t.txpay[k]? = s.txpay[k]?) ∧ t.txbuf = s.txbuf ∧ t.raw = s.raw) ∧
    (∀ (fmt : BitVec 4) (v : Word), exec (.venc fmt v) s = .next t → Succeeded t →
      t.txpay.length = (if fmt = 0#4 then 1 else if fmt = 1#4 then 2 else 4) ∧
      (∀ k, k < t.txpay.length → t.txpay[k]? = some (v.extractLsb' (8 * k) 8)) ∧
      t.rsp = some ⟨0x00#8, BitVec.ofNat 32 t.txpay.length⟩ ∧ t.txbuf = s.txbuf ∧ t.raw = s.raw) ∧
    (∀ (i : Instr) (sid : Byte), (i = .bldrd ∧ sid = 0x01#8 ∨ i = .bldwr ∧ sid = 0x02#8) → exec i s = .next t → Succeeded t →
      t.txbuf = frame sid s.tsrc s.tdst s.totype s.toid s.tpid s.txpay ∧ t.txbuf.length = 26 + s.txpay.length ∧
      t.txpay = [] ∧ t.raw = s.raw)
end

