-- ==== Sys2Proof/Laws/Bits.lean ====
section
/-! SUPPORT. Bit-field lemmas: the bytes of a word and the fields of a command word. -/

namespace Sys2Proof.Machine

theorem byte_high_of_append (x y : Byte) : (x ++ y : BitVec (8 + 8)).extractLsb' 8 8 = x := by
  apply BitVec.eq_of_getLsbD_eq
  intro i hi
  simp only [BitVec.getLsbD_extractLsb', BitVec.getLsbD_append]
  simp [hi]

theorem byte_low_of_append (x y : Byte) : (x ++ y : BitVec (8 + 8)).extractLsb' 0 8 = y := by
  apply BitVec.eq_of_getLsbD_eq
  intro i hi
  simp only [BitVec.getLsbD_extractLsb', BitVec.getLsbD_append]
  simp [hi]

/-- The four bytes of a word, put together again little-endian, are the word. -/
theorem append_bytes_of_word (v : Word) :
    v.extractLsb' 24 8 ++ v.extractLsb' 16 8 ++ v.extractLsb' 8 8 ++ v.extractLsb' 0 8 = v := by
  apply BitVec.eq_of_getLsbD_eq
  intro i hi
  simp only [BitVec.getLsbD_extractLsb', BitVec.getLsbD_append]
  repeat' split
  all_goals rw [decide_eq_true (by omega), Bool.true_and]; congr 1; omega

/-- The two bytes of a halfword, put together again, are the halfword. -/
theorem append_bytes_of_half (v : Half) : v.extractLsb' 8 8 ++ v.extractLsb' 0 8 = v := by
  apply BitVec.eq_of_getLsbD_eq
  intro i hi
  simp only [BitVec.getLsbD_extractLsb', BitVec.getLsbD_append]
  repeat' split
  all_goals rw [decide_eq_true (by omega), Bool.true_and]; congr 1; omega

/-- The big-endian bytes of `{A, B}` are A, then B (R39). -/
theorem bytesBe16_accWord (acc : Acc) : bytesBe16 (accWord acc) = [acc.1, acc.2] := by
  show [_, _] = _
  rw [accWord, byte_high_of_append, byte_low_of_append]

theorem bytesLe_word (v : Word) :
    bytesLe v 4 = [v.extractLsb' 0 8, v.extractLsb' 8 8, v.extractLsb' 16 8, v.extractLsb' 24 8] := rfl

theorem bytesLe_half (v : Half) : bytesLe v 2 = [v.extractLsb' 0 8, v.extractLsb' 8 8] := rfl

theorem bytesLe_byte (v : Word) : bytesLe v 1 = [v.extractLsb' 0 8] := rfl

@[simp] theorem bytesLe_length {w : Nat} (v : BitVec w) (n : Nat) : (bytesLe v n).length = n := by
  simp [bytesLe]

end Sys2Proof.Machine

namespace Sys2Proof

@[simp] theorem opField_cmdWord (op sub : BitVec 8) (imm : Word) : opField (cmdWord op sub imm) = op := by
  apply BitVec.eq_of_getLsbD_eq
  intro i hi
  simp only [opField, cmdWord, BitVec.getLsbD_extractLsb', BitVec.getLsbD_append, decide_eq_true hi, Bool.true_and]
  repeat' split
  all_goals first | (exfalso; omega) | (congr 1; omega)

@[simp] theorem subField_cmdWord (op sub : BitVec 8) (imm : Word) : subField (cmdWord op sub imm) = sub := by
  apply BitVec.eq_of_getLsbD_eq
  intro i hi
  simp only [subField, cmdWord, BitVec.getLsbD_extractLsb', BitVec.getLsbD_append, decide_eq_true hi, Bool.true_and]
  repeat' split
  all_goals first | (exfalso; omega) | (congr 1; omega)

@[simp] theorem immField_cmdWord (op sub : BitVec 8) (imm : Word) : immField (cmdWord op sub imm) = imm := by
  apply BitVec.eq_of_getLsbD_eq
  intro i hi
  simp only [immField, cmdWord, BitVec.getLsbD_extractLsb', BitVec.getLsbD_append, decide_eq_true hi, Bool.true_and]
  repeat' split
  all_goals first | (exfalso; omega) | (congr 1; omega)

/-- A command word is its three fields (R53). -/
theorem cmdWord_fields (w : CmdWord) : cmdWord (opField w) (subField w) (immField w) = w := by
  apply BitVec.eq_of_getLsbD_eq
  intro i hi
  simp only [opField, subField, immField, cmdWord, BitVec.getLsbD_extractLsb', BitVec.getLsbD_append]
  repeat' split
  all_goals rw [decide_eq_true (by omega), Bool.true_and]; congr 1; omega

end Sys2Proof
end

