-- ==== Sys2Proof/Laws/State.lean ====
section
/-! SUPPORT. One lemma per field per update of the state. -/

namespace Sys2Proof.Machine

variable (s : State)

@[simp] theorem State.respond_a (d : Word) : (s.respond d).a = s.a := rfl
@[simp] theorem State.respond_b (d : Word) : (s.respond d).b = s.b := rfl
@[simp] theorem State.respond_tsrc (d : Word) : (s.respond d).tsrc = s.tsrc := rfl
@[simp] theorem State.respond_tdst (d : Word) : (s.respond d).tdst = s.tdst := rfl
@[simp] theorem State.respond_totype (d : Word) : (s.respond d).totype = s.totype := rfl
@[simp] theorem State.respond_toid (d : Word) : (s.respond d).toid = s.toid := rfl
@[simp] theorem State.respond_tpid (d : Word) : (s.respond d).tpid = s.tpid := rfl
@[simp] theorem State.respond_txpay (d : Word) : (s.respond d).txpay = s.txpay := rfl
@[simp] theorem State.respond_txpk (d : Word) : (s.respond d).txpk = s.txpk := rfl
@[simp] theorem State.respond_txbuf (d : Word) : (s.respond d).txbuf = s.txbuf := rfl
@[simp] theorem State.respond_raw (d : Word) : (s.respond d).raw = s.raw := rfl
@[simp] theorem State.respond_rxst (d : Word) : (s.respond d).rxst = s.rxst := rfl
@[simp] theorem State.respond_pval (d : Word) : (s.respond d).pval = s.pval := rfl
@[simp] theorem State.respond_ptag (d : Word) : (s.respond d).ptag = s.ptag := rfl
@[simp] theorem State.respond_flt (d : Word) : (s.respond d).flt = s.flt := rfl
@[simp] theorem State.respond_maxpay (d : Word) : (s.respond d).maxpay = s.maxpay := rfl
@[simp] theorem State.respond_cmds (d : Word) : (s.respond d).cmds = s.cmds := rfl
@[simp] theorem State.respond_rsp (d : Word) : (s.respond d).rsp = some ⟨0x00#8, d⟩ := rfl

@[simp] theorem State.raise_a (c : FaultCode) : (s.raise c).a = s.a := rfl
@[simp] theorem State.raise_b (c : FaultCode) : (s.raise c).b = s.b := rfl
@[simp] theorem State.raise_tsrc (c : FaultCode) : (s.raise c).tsrc = s.tsrc := rfl
@[simp] theorem State.raise_tdst (c : FaultCode) : (s.raise c).tdst = s.tdst := rfl
@[simp] theorem State.raise_totype (c : FaultCode) : (s.raise c).totype = s.totype := rfl
@[simp] theorem State.raise_toid (c : FaultCode) : (s.raise c).toid = s.toid := rfl
@[simp] theorem State.raise_tpid (c : FaultCode) : (s.raise c).tpid = s.tpid := rfl
@[simp] theorem State.raise_txpay (c : FaultCode) : (s.raise c).txpay = s.txpay := rfl
@[simp] theorem State.raise_txpk (c : FaultCode) : (s.raise c).txpk = s.txpk := rfl
@[simp] theorem State.raise_txbuf (c : FaultCode) : (s.raise c).txbuf = s.txbuf := rfl
@[simp] theorem State.raise_raw (c : FaultCode) : (s.raise c).raw = s.raw := rfl
@[simp] theorem State.raise_rxst (c : FaultCode) : (s.raise c).rxst = s.rxst := rfl
@[simp] theorem State.raise_pval (c : FaultCode) : (s.raise c).pval = s.pval := rfl
@[simp] theorem State.raise_ptag (c : FaultCode) : (s.raise c).ptag = s.ptag := rfl
@[simp] theorem State.raise_flt (c : FaultCode) : (s.raise c).flt = s.flt ||| c.bit := rfl
@[simp] theorem State.raise_maxpay (c : FaultCode) : (s.raise c).maxpay = s.maxpay := rfl
@[simp] theorem State.raise_cmds (c : FaultCode) : (s.raise c).cmds = s.cmds := rfl
@[simp] theorem State.raise_rsp (c : FaultCode) : (s.raise c).rsp = some ⟨c.status, 0#32⟩ := rfl

@[simp] theorem State.setAcc_a (x y : Byte) : (s.setAcc x y).a = x := rfl
@[simp] theorem State.setAcc_b (x y : Byte) : (s.setAcc x y).b = y := rfl
@[simp] theorem State.setAcc_tsrc (x y : Byte) : (s.setAcc x y).tsrc = s.tsrc := rfl
@[simp] theorem State.setAcc_tdst (x y : Byte) : (s.setAcc x y).tdst = s.tdst := rfl
@[simp] theorem State.setAcc_totype (x y : Byte) : (s.setAcc x y).totype = s.totype := rfl
@[simp] theorem State.setAcc_toid (x y : Byte) : (s.setAcc x y).toid = s.toid := rfl
@[simp] theorem State.setAcc_tpid (x y : Byte) : (s.setAcc x y).tpid = s.tpid := rfl
@[simp] theorem State.setAcc_txpay (x y : Byte) : (s.setAcc x y).txpay = s.txpay := rfl
@[simp] theorem State.setAcc_txpk (x y : Byte) : (s.setAcc x y).txpk = s.txpk := rfl
@[simp] theorem State.setAcc_txbuf (x y : Byte) : (s.setAcc x y).txbuf = s.txbuf := rfl
@[simp] theorem State.setAcc_raw (x y : Byte) : (s.setAcc x y).raw = s.raw := rfl
@[simp] theorem State.setAcc_rxst (x y : Byte) : (s.setAcc x y).rxst = s.rxst := rfl
@[simp] theorem State.setAcc_pval (x y : Byte) : (s.setAcc x y).pval = s.pval := rfl
@[simp] theorem State.setAcc_ptag (x y : Byte) : (s.setAcc x y).ptag = s.ptag := rfl
@[simp] theorem State.setAcc_flt (x y : Byte) : (s.setAcc x y).flt = s.flt := rfl
@[simp] theorem State.setAcc_maxpay (x y : Byte) : (s.setAcc x y).maxpay = s.maxpay := rfl
@[simp] theorem State.setAcc_cmds (x y : Byte) : (s.setAcc x y).cmds = s.cmds := rfl
@[simp] theorem State.setAcc_rsp (x y : Byte) : (s.setAcc x y).rsp = s.rsp := rfl

@[simp] theorem State.setPay_a (p : Bytes) (k : PayKind) : (s.setPay p k).a = s.a := rfl
@[simp] theorem State.setPay_b (p : Bytes) (k : PayKind) : (s.setPay p k).b = s.b := rfl
@[simp] theorem State.setPay_tsrc (p : Bytes) (k : PayKind) : (s.setPay p k).tsrc = s.tsrc := rfl
@[simp] theorem State.setPay_tdst (p : Bytes) (k : PayKind) : (s.setPay p k).tdst = s.tdst := rfl
@[simp] theorem State.setPay_totype (p : Bytes) (k : PayKind) : (s.setPay p k).totype = s.totype := rfl
@[simp] theorem State.setPay_toid (p : Bytes) (k : PayKind) : (s.setPay p k).toid = s.toid := rfl
@[simp] theorem State.setPay_tpid (p : Bytes) (k : PayKind) : (s.setPay p k).tpid = s.tpid := rfl
@[simp] theorem State.setPay_txpay (p : Bytes) (k : PayKind) : (s.setPay p k).txpay = p := rfl
@[simp] theorem State.setPay_txpk (p : Bytes) (k : PayKind) : (s.setPay p k).txpk = k := rfl
@[simp] theorem State.setPay_txbuf (p : Bytes) (k : PayKind) : (s.setPay p k).txbuf = s.txbuf := rfl
@[simp] theorem State.setPay_raw (p : Bytes) (k : PayKind) : (s.setPay p k).raw = s.raw := rfl
@[simp] theorem State.setPay_rxst (p : Bytes) (k : PayKind) : (s.setPay p k).rxst = s.rxst := rfl
@[simp] theorem State.setPay_pval (p : Bytes) (k : PayKind) : (s.setPay p k).pval = s.pval := rfl
@[simp] theorem State.setPay_ptag (p : Bytes) (k : PayKind) : (s.setPay p k).ptag = s.ptag := rfl
@[simp] theorem State.setPay_flt (p : Bytes) (k : PayKind) : (s.setPay p k).flt = s.flt := rfl
@[simp] theorem State.setPay_maxpay (p : Bytes) (k : PayKind) : (s.setPay p k).maxpay = s.maxpay := rfl
@[simp] theorem State.setPay_cmds (p : Bytes) (k : PayKind) : (s.setPay p k).cmds = s.cmds := rfl
@[simp] theorem State.setPay_rsp (p : Bytes) (k : PayKind) : (s.setPay p k).rsp = s.rsp := rfl

@[simp] theorem State.setTx_a (f : Bytes) : (s.setTx f).a = s.a := rfl
@[simp] theorem State.setTx_b (f : Bytes) : (s.setTx f).b = s.b := rfl
@[simp] theorem State.setTx_tsrc (f : Bytes) : (s.setTx f).tsrc = s.tsrc := rfl
@[simp] theorem State.setTx_tdst (f : Bytes) : (s.setTx f).tdst = s.tdst := rfl
@[simp] theorem State.setTx_totype (f : Bytes) : (s.setTx f).totype = s.totype := rfl
@[simp] theorem State.setTx_toid (f : Bytes) : (s.setTx f).toid = s.toid := rfl
@[simp] theorem State.setTx_tpid (f : Bytes) : (s.setTx f).tpid = s.tpid := rfl
@[simp] theorem State.setTx_txpay (f : Bytes) : (s.setTx f).txpay = s.txpay := rfl
@[simp] theorem State.setTx_txpk (f : Bytes) : (s.setTx f).txpk = s.txpk := rfl
@[simp] theorem State.setTx_txbuf (f : Bytes) : (s.setTx f).txbuf = f := rfl
@[simp] theorem State.setTx_raw (f : Bytes) : (s.setTx f).raw = s.raw := rfl
@[simp] theorem State.setTx_rxst (f : Bytes) : (s.setTx f).rxst = s.rxst := rfl
@[simp] theorem State.setTx_pval (f : Bytes) : (s.setTx f).pval = s.pval := rfl
@[simp] theorem State.setTx_ptag (f : Bytes) : (s.setTx f).ptag = s.ptag := rfl
@[simp] theorem State.setTx_flt (f : Bytes) : (s.setTx f).flt = s.flt := rfl
@[simp] theorem State.setTx_maxpay (f : Bytes) : (s.setTx f).maxpay = s.maxpay := rfl
@[simp] theorem State.setTx_cmds (f : Bytes) : (s.setTx f).cmds = s.cmds := rfl
@[simp] theorem State.setTx_rsp (f : Bytes) : (s.setTx f).rsp = s.rsp := rfl

@[simp] theorem State.setRx_a (r : Bytes) (st : RxState) : (s.setRx r st).a = s.a := rfl
@[simp] theorem State.setRx_b (r : Bytes) (st : RxState) : (s.setRx r st).b = s.b := rfl
@[simp] theorem State.setRx_tsrc (r : Bytes) (st : RxState) : (s.setRx r st).tsrc = s.tsrc := rfl
@[simp] theorem State.setRx_tdst (r : Bytes) (st : RxState) : (s.setRx r st).tdst = s.tdst := rfl
@[simp] theorem State.setRx_totype (r : Bytes) (st : RxState) : (s.setRx r st).totype = s.totype := rfl
@[simp] theorem State.setRx_toid (r : Bytes) (st : RxState) : (s.setRx r st).toid = s.toid := rfl
@[simp] theorem State.setRx_tpid (r : Bytes) (st : RxState) : (s.setRx r st).tpid = s.tpid := rfl
@[simp] theorem State.setRx_txpay (r : Bytes) (st : RxState) : (s.setRx r st).txpay = s.txpay := rfl
@[simp] theorem State.setRx_txpk (r : Bytes) (st : RxState) : (s.setRx r st).txpk = s.txpk := rfl
@[simp] theorem State.setRx_txbuf (r : Bytes) (st : RxState) : (s.setRx r st).txbuf = s.txbuf := rfl
@[simp] theorem State.setRx_raw (r : Bytes) (st : RxState) : (s.setRx r st).raw = r := rfl
@[simp] theorem State.setRx_rxst (r : Bytes) (st : RxState) : (s.setRx r st).rxst = st := rfl
@[simp] theorem State.setRx_pval (r : Bytes) (st : RxState) : (s.setRx r st).pval = s.pval := rfl
@[simp] theorem State.setRx_ptag (r : Bytes) (st : RxState) : (s.setRx r st).ptag = s.ptag := rfl
@[simp] theorem State.setRx_flt (r : Bytes) (st : RxState) : (s.setRx r st).flt = s.flt := rfl
@[simp] theorem State.setRx_maxpay (r : Bytes) (st : RxState) : (s.setRx r st).maxpay = s.maxpay := rfl
@[simp] theorem State.setRx_cmds (r : Bytes) (st : RxState) : (s.setRx r st).cmds = s.cmds := rfl
@[simp] theorem State.setRx_rsp (r : Bytes) (st : RxState) : (s.setRx r st).rsp = s.rsp := rfl

@[simp] theorem State.setVal_a (v : Word) (t : ValTag) : (s.setVal v t).a = s.a := rfl
@[simp] theorem State.setVal_b (v : Word) (t : ValTag) : (s.setVal v t).b = s.b := rfl
@[simp] theorem State.setVal_tsrc (v : Word) (t : ValTag) : (s.setVal v t).tsrc = s.tsrc := rfl
@[simp] theorem State.setVal_tdst (v : Word) (t : ValTag) : (s.setVal v t).tdst = s.tdst := rfl
@[simp] theorem State.setVal_totype (v : Word) (t : ValTag) : (s.setVal v t).totype = s.totype := rfl
@[simp] theorem State.setVal_toid (v : Word) (t : ValTag) : (s.setVal v t).toid = s.toid := rfl
@[simp] theorem State.setVal_tpid (v : Word) (t : ValTag) : (s.setVal v t).tpid = s.tpid := rfl
@[simp] theorem State.setVal_txpay (v : Word) (t : ValTag) : (s.setVal v t).txpay = s.txpay := rfl
@[simp] theorem State.setVal_txpk (v : Word) (t : ValTag) : (s.setVal v t).txpk = s.txpk := rfl
@[simp] theorem State.setVal_txbuf (v : Word) (t : ValTag) : (s.setVal v t).txbuf = s.txbuf := rfl
@[simp] theorem State.setVal_raw (v : Word) (t : ValTag) : (s.setVal v t).raw = s.raw := rfl
@[simp] theorem State.setVal_rxst (v : Word) (t : ValTag) : (s.setVal v t).rxst = s.rxst := rfl
@[simp] theorem State.setVal_pval (v : Word) (t : ValTag) : (s.setVal v t).pval = v := rfl
@[simp] theorem State.setVal_ptag (v : Word) (t : ValTag) : (s.setVal v t).ptag = t := rfl
@[simp] theorem State.setVal_flt (v : Word) (t : ValTag) : (s.setVal v t).flt = s.flt := rfl
@[simp] theorem State.setVal_maxpay (v : Word) (t : ValTag) : (s.setVal v t).maxpay = s.maxpay := rfl
@[simp] theorem State.setVal_cmds (v : Word) (t : ValTag) : (s.setVal v t).cmds = s.cmds := rfl
@[simp] theorem State.setVal_rsp (v : Word) (t : ValTag) : (s.setVal v t).rsp = s.rsp := rfl

@[simp] theorem State.softReset_a : (s.softReset).a = State.reset.a := rfl
@[simp] theorem State.softReset_b : (s.softReset).b = State.reset.b := rfl
@[simp] theorem State.softReset_tsrc : (s.softReset).tsrc = State.reset.tsrc := rfl
@[simp] theorem State.softReset_tdst : (s.softReset).tdst = State.reset.tdst := rfl
@[simp] theorem State.softReset_totype : (s.softReset).totype = State.reset.totype := rfl
@[simp] theorem State.softReset_toid : (s.softReset).toid = State.reset.toid := rfl
@[simp] theorem State.softReset_tpid : (s.softReset).tpid = State.reset.tpid := rfl
@[simp] theorem State.softReset_txpay : (s.softReset).txpay = State.reset.txpay := rfl
@[simp] theorem State.softReset_txpk : (s.softReset).txpk = State.reset.txpk := rfl
@[simp] theorem State.softReset_txbuf : (s.softReset).txbuf = State.reset.txbuf := rfl
@[simp] theorem State.softReset_raw : (s.softReset).raw = State.reset.raw := rfl
@[simp] theorem State.softReset_rxst : (s.softReset).rxst = State.reset.rxst := rfl
@[simp] theorem State.softReset_pval : (s.softReset).pval = State.reset.pval := rfl
@[simp] theorem State.softReset_ptag : (s.softReset).ptag = State.reset.ptag := rfl
@[simp] theorem State.softReset_flt : (s.softReset).flt = State.reset.flt := rfl
@[simp] theorem State.softReset_maxpay : (s.softReset).maxpay = s.maxpay := rfl
@[simp] theorem State.softReset_cmds : (s.softReset).cmds = s.cmds := rfl
@[simp] theorem State.softReset_rsp : (s.softReset).rsp = s.rsp := rfl

@[simp] theorem State.present_a (w : CmdWord) : (s.present w).a = s.a := rfl
@[simp] theorem State.present_b (w : CmdWord) : (s.present w).b = s.b := rfl
@[simp] theorem State.present_tsrc (w : CmdWord) : (s.present w).tsrc = s.tsrc := rfl
@[simp] theorem State.present_tdst (w : CmdWord) : (s.present w).tdst = s.tdst := rfl
@[simp] theorem State.present_totype (w : CmdWord) : (s.present w).totype = s.totype := rfl
@[simp] theorem State.present_toid (w : CmdWord) : (s.present w).toid = s.toid := rfl
@[simp] theorem State.present_tpid (w : CmdWord) : (s.present w).tpid = s.tpid := rfl
@[simp] theorem State.present_txpay (w : CmdWord) : (s.present w).txpay = s.txpay := rfl
@[simp] theorem State.present_txpk (w : CmdWord) : (s.present w).txpk = s.txpk := rfl
@[simp] theorem State.present_txbuf (w : CmdWord) : (s.present w).txbuf = s.txbuf := rfl
@[simp] theorem State.present_raw (w : CmdWord) : (s.present w).raw = s.raw := rfl
@[simp] theorem State.present_rxst (w : CmdWord) : (s.present w).rxst = s.rxst := rfl
@[simp] theorem State.present_pval (w : CmdWord) : (s.present w).pval = s.pval := rfl
@[simp] theorem State.present_ptag (w : CmdWord) : (s.present w).ptag = s.ptag := rfl
@[simp] theorem State.present_flt (w : CmdWord) : (s.present w).flt = s.flt := rfl
@[simp] theorem State.present_maxpay (w : CmdWord) : (s.present w).maxpay = s.maxpay := rfl
@[simp] theorem State.present_cmds (w : CmdWord) : (s.present w).cmds = w :: s.cmds := rfl
@[simp] theorem State.present_rsp (w : CmdWord) : (s.present w).rsp = s.rsp := rfl

end Sys2Proof.Machine
end

