-- ==== Sys2Proof/Laws/Ops.lean ====
section
/-! SUPPORT. One specification lemma per shared operation. -/

namespace Sys2Proof.Machine

/-! ### Buffers -/

theorem memRead_eq_some_iff {buf out : Bytes} {addr n : Nat} :
    memRead buf addr n = some out ↔ addr + n ≤ buf.length ∧ out = (buf.drop addr).take n := by
  unfold memRead
  split <;> simp_all [eq_comm]

theorem memRead_of_le {buf : Bytes} {addr n : Nat} (h : addr + n ≤ buf.length) :
    memRead buf addr n = some ((buf.drop addr).take n) := by
  simp [memRead, h]

theorem memAppend_eq_some_iff {capacity : Nat} {buf v out : Bytes} :
    memAppend capacity buf v = some out ↔ buf.length + v.length ≤ capacity ∧ out = buf ++ v := by
  unfold memAppend
  split <;> simp_all [eq_comm]

theorem memAppend_of_le {capacity : Nat} {buf v : Bytes} (h : buf.length + v.length ≤ capacity) :
    memAppend capacity buf v = some (buf ++ v) := by
  simp [memAppend, h]

theorem memAppend_of_lt {capacity : Nat} {buf v : Bytes} (h : capacity < buf.length + v.length) :
    memAppend capacity buf v = none := by
  simp [memAppend, Nat.not_le.mpr h]

theorem le16_eq_some_iff {f : Bytes} {k : Nat} {v : Half} :
    le16 f k = some v ↔ ∃ b0 b1, f[k]? = some b0 ∧ f[k + 1]? = some b1 ∧ v = b1 ++ b0 := by
  unfold le16
  split
  · rename_i b0 b1 h0 h1
    simp [h0, h1, eq_comm]
  · rename_i h
    simp only [reduceCtorEq, false_iff, not_exists, not_and]
    intro b0 b1 h0 h1
    exact absurd h1 (h b0 b1 h0)

theorem be16_eq_some_iff {f : Bytes} {k : Nat} {v : Half} :
    be16 f k = some v ↔ ∃ b0 b1, f[k]? = some b0 ∧ f[k + 1]? = some b1 ∧ v = b0 ++ b1 := by
  unfold be16
  split
  · rename_i b0 b1 h0 h1
    simp [h0, h1, eq_comm]
  · rename_i h
    simp only [reduceCtorEq, false_iff, not_exists, not_and]
    intro b0 b1 h0 h1
    exact absurd h1 (h b0 b1 h0)

theorem le32_eq_some_iff {f : Bytes} {k : Nat} {v : Word} :
    le32 f k = some v ↔ ∃ b0 b1 b2 b3, f[k]? = some b0 ∧ f[k + 1]? = some b1 ∧ f[k + 2]? = some b2 ∧
      f[k + 3]? = some b3 ∧ v = b3 ++ b2 ++ b1 ++ b0 := by
  unfold le32
  split
  · rename_i b0 b1 b2 b3 h0 h1 h2 h3
    simp [h0, h1, h2, h3, eq_comm]
  · rename_i h
    simp only [reduceCtorEq, false_iff, not_exists, not_and]
    intro b0 b1 b2 b3 h0 h1 h2 h3
    exact absurd h3 (h b0 b1 b2 b3 h0 h1 h2)

/-- A two-byte field is there when the buffer reaches past it. -/
theorem le16_exists {f : Bytes} {k : Nat} (h : k + 1 < f.length) : ∃ v, le16 f k = some v :=
  ⟨_, le16_eq_some_iff.mpr ⟨_, _, List.getElem?_eq_getElem (by omega), List.getElem?_eq_getElem h, rfl⟩⟩

theorem be16_exists {f : Bytes} {k : Nat} (h : k + 1 < f.length) : ∃ v, be16 f k = some v :=
  ⟨_, be16_eq_some_iff.mpr ⟨_, _, List.getElem?_eq_getElem (by omega), List.getElem?_eq_getElem h, rfl⟩⟩

theorem le32_exists {f : Bytes} {k : Nat} (h : k + 3 < f.length) : ∃ v, le32 f k = some v :=
  ⟨_, le32_eq_some_iff.mpr ⟨_, _, _, _, List.getElem?_eq_getElem (by omega), List.getElem?_eq_getElem (by omega),
    List.getElem?_eq_getElem (by omega), List.getElem?_eq_getElem h, rfl⟩⟩

/-- Appending leaves a two-byte field that was already there. -/
theorem le16_append {f g : Bytes} {k : Nat} {v : Half} (h : le16 f k = some v) : le16 (f ++ g) k = some v := by
  obtain ⟨b0, b1, h0, h1, rfl⟩ := le16_eq_some_iff.mp h
  have l0 := (List.getElem?_eq_some_iff.mp h0).1
  have l1 := (List.getElem?_eq_some_iff.mp h1).1
  exact le16_eq_some_iff.mpr ⟨b0, b1, by rw [List.getElem?_append_left l0, h0], by rw [List.getElem?_append_left l1, h1], rfl⟩

/-- PLEN is `n` exactly when the data size is `10 + n` (R24). -/
theorem payloadLength_eq_some_iff {raw : Bytes} {n : Nat} :
    payloadLength raw = some n ↔ ∃ d, le16 raw 10 = some d ∧ d.toNat = 10 + n := by
  unfold payloadLength Config.fixData
  cases h : le16 raw 10 with
  | none => simp
  | some d =>
    simp only [Option.some.injEq, exists_eq_left']
    split <;> simp <;> omega

/-! ### The response and the fault mechanism -/

@[simp] theorem answer_eq (s : State) (d : Word) : answer s d = .next (s.respond d) := rfl

@[simp] theorem raiseFault_eq (s : State) (c : FaultCode) : raiseFault s c = .next (s.raise c) := rfl

theorem require_of {s : State} {c : Prop} [Decidable c] {code : FaultCode} {k : Result} (h : c) :
    require s c code k = k := by
  simp [require, h]

theorem require_of_not {s : State} {c : Prop} [Decidable c] {code : FaultCode} {k : Result} (h : ¬ c) :
    require s c code k = .next (s.raise code) := by
  simp [require, h]

/-- What a `require` can do: its check holds and the rest answers, or it faults with its code. -/
theorem require_next {s t : State} {c : Prop} [Decidable c] {code : FaultCode} {k : Result}
    (h : require s c code k = .next t) : (c ∧ k = .next t) ∨ (¬ c ∧ t = s.raise code) := by
  unfold require at h
  split at h
  · exact .inl ⟨‹_›, h⟩
  · exact .inr ⟨‹_›, by simpa using h.symm⟩

@[simp] theorem orFault_some {α : Type} (v : α) (f : Fault) (k : α → Result) : orFault (some v) f k = k v := rfl

@[simp] theorem orFault_none {α : Type} (f : Fault) (k : α → Result) : orFault none f k = .fault f := rfl

/-- What an `orFault` can do when it answers: the value is there. -/
theorem orFault_next {α : Type} {o : Option α} {f : Fault} {k : α → Result} {t : State}
    (h : orFault o f k = .next t) : ∃ v, o = some v ∧ k v = .next t := by
  cases o with
  | none => cases h
  | some v => exact ⟨v, rfl, h⟩

@[simp] theorem orRaise_ok {α : Type} (s : State) (v : α) (k : α → Result) : orRaise s (.ok v) k = k v := rfl

@[simp] theorem orRaise_error {α : Type} (s : State) (c : FaultCode) (k : α → Result) :
    orRaise s (.error c) k = .next (s.raise c) := rfl

/-- What an `orRaise` can do: the codec answered, or the command faults with its code. -/
theorem orRaise_next {α : Type} {s t : State} {r : Except FaultCode α} {k : α → Result}
    (h : orRaise s r k = .next t) : (∃ v, r = .ok v ∧ k v = .next t) ∨ (∃ c, r = .error c ∧ t = s.raise c) := by
  cases r with
  | ok v => exact .inl ⟨v, rfl, h⟩
  | error c => exact .inr ⟨c, rfl, by simpa using h.symm⟩

/-- What a load by index can do: the byte is there and is answered, or ERR_SHORT (R47). -/
theorem loadByte_next {s t : State} {buf : Bytes} {i : Half} (h : loadByte s buf i = .next t) :
    (∃ v, buf[i.toNat]? = some v ∧ t = s.respond (zext v)) ∨ (buf.length ≤ i.toNat ∧ t = s.raise .short) := by
  unfold loadByte at h
  split at h
  · exact .inl ⟨_, ‹_›, by simpa using h.symm⟩
  · rename_i hn
    exact .inr ⟨List.getElem?_eq_none_iff.mp hn, by simpa using h.symm⟩

/-- What a command on the payload can do. -/
theorem withPayload_next {s t : State} {k : Nat → Result} (h : withPayload s k = .next t) :
    (∃ n, s.rxst = .done ∧ payloadLength s.raw = some n ∧ k n = .next t) ∨ (s.rxst ≠ .done ∧ t = s.raise .state) := by
  rcases require_next h with ⟨hd, hk⟩ | h'
  · obtain ⟨n, hn, hk⟩ := orFault_next hk
    exact .inl ⟨n, hd, hn, hk⟩
  · exact .inr h'

theorem withPayload_of {s : State} {k : Nat → Result} {n : Nat} (hd : s.rxst = .done) (hn : payloadLength s.raw = some n) :
    withPayload s k = k n := by
  simp [withPayload, requireFrame, require_of hd, hn]

/-- What a command on the context block can do. -/
theorem withContext_next {s t : State} {k : Result} (h : withContext s k = .next t) :
    k = .next t ∨ t = s.raise .state ∨ t = s.raise .short := by
  rcases withPayload_next h with ⟨n, _, _, hk⟩ | ⟨_, rfl⟩
  · rcases require_next hk with ⟨_, hk⟩ | ⟨_, rfl⟩
    · exact .inl hk
    · exact .inr (.inr rfl)
  · exact .inr (.inl rfl)

/-- What a command on a record can do. -/
theorem withRecord_next {s t : State} {i : Half} {k : Nat → Result} (h : withRecord s i k = .next t) :
    k (recordAt i) = .next t ∨ t = s.raise .state ∨ t = s.raise .short := by
  rcases withPayload_next h with ⟨n, _, _, hk⟩ | ⟨_, rfl⟩
  · rcases require_next hk with ⟨_, hk⟩ | ⟨_, rfl⟩
    · exact .inl hk
    · exact .inr (.inr rfl)
  · exact .inr (.inl rfl)

/-- What a build can do (R89): the frame of R85 fits and is built. -/
theorem build_next {sid : Byte} {s t : State} (h : build sid s = .next t) :
    s.txpay.length ≤ s.maxpay ∧ ∃ dacc, dacc = absorbAll accInit (dataSection sid s.totype s.toid s.tpid s.txpay) ∧
      t = ((((s.setAcc dacc.1 dacc.2).setTx (frame sid s.tsrc s.tdst s.totype s.toid s.tpid s.txpay)).setPay [] .empty).respond
        (count (26 + s.txpay.length))) := by
  obtain ⟨buf, hb, hk⟩ := orFault_next h
  obtain ⟨hl, rfl⟩ := memAppend_eq_some_iff.mp hb
  refine ⟨?_, _, rfl, ?_⟩
  · simp [headerSection, dataSection, bytesLe, Config.maxFrame, Config.minFrame] at hl
    omega
  · simp [Config.minFrame] at hk
    rw [← hk]
    simp [frame, checksum, bytesBe16_accWord, State.setAcc, State.setTx, State.setPay, State.respond]

end Sys2Proof.Machine
end

