-- ==== Sys2Proof/Laws/Safety.lean ====
section
/-! SUPPORT. The terms of the statements in the terms of the model. -/

namespace Sys2Proof.Machine

/-- A fault of the model is the fault the statements speak of: bit `c` of FLT and the response `(c, 0)`. -/
theorem raise_eq_faulted (s : State) (c : FaultCode) : s.raise c = faulted s c.number := by
  cases c <;> rfl

theorem respond_eq_answered (s : State) (d : Word) : s.respond d = answered s d := rfl

theorem fault_number_range (c : FaultCode) : 1 ≤ c.number ∧ c.number ≤ 9 := by
  cases c <;> decide

theorem fault_status_ne_zero (c : FaultCode) : c.status ≠ 0x00#8 := by
  cases c <;> decide

theorem raise_not_succeeded (s : State) (c : FaultCode) : ¬ Succeeded (s.raise c) := by
  rintro ⟨d, h⟩
  simp only [State.raise_rsp, Option.some.injEq, Response.mk.injEq] at h
  exact fault_status_ne_zero c h.1

theorem respond_succeeded (s : State) (d : Word) : Succeeded (s.respond d) := ⟨d, rfl⟩

theorem holdsPayload_iff {s : State} {n : Nat} : HoldsPayload s n ↔ s.rxst = .done ∧ payloadLength s.raw = some n := by
  rw [HoldsPayload, payloadLength_eq_some_iff]

/-- A step whose word decodes runs its command; one whose word does not is illegal. -/
theorem step_cons {s : State} {w : CmdWord} {rest : List CmdWord} (h : s.cmds = w :: rest) :
    step s = match decode w with
      | .ok i => exec i { s with cmds := rest }
      | .error _ => .next (State.raise { s with cmds := rest } .ill) := by
  cases hd : decode w <;> simp only [step, State.fetch, h, hd, illegalWord, raiseFault_eq]

/-- What a step can do when it answers. -/
theorem step_next {s t : State} (h : step s = .next t) :
    (s.cmds = [] ∧ t = s) ∨
    (∃ w rest i, s.cmds = w :: rest ∧ decode w = .ok i ∧ exec i { s with cmds := rest } = .next t) ∨
    (∃ w rest e, s.cmds = w :: rest ∧ decode w = .error e ∧ t = State.raise { s with cmds := rest } .ill) := by
  cases hc : s.cmds with
  | nil =>
    simp only [step, State.fetch, hc, idle, Host.Outcome.next.injEq] at h
    exact .inl ⟨rfl, h.symm⟩
  | cons w rest =>
    rw [step_cons hc] at h
    cases hd : decode w with
    | ok i => rw [hd] at h; exact .inr (.inl ⟨w, rest, i, rfl, hd, h⟩)
    | error e =>
      rw [hd] at h
      exact .inr (.inr ⟨w, rest, e, rfl, hd, by simpa using h.symm⟩)

theorem runAll_append {is js : List Instr} {s t : State} (h : runAll is s = .next t) :
    runAll (is ++ js) s = runAll js t := by
  induction is generalizing s with
  | nil => cases h; rfl
  | cons i is ih =>
    simp only [runAll, List.cons_append] at h ⊢
    cases he : exec i s with
    | next u => rw [he] at h; exact ih h
    | fault f => rw [he] at h; cases h
    | refused r => rw [he] at h; cases h

end Sys2Proof.Machine
end

