-- ==== Sys2Proof/Laws/Frames.lean ====
section
/-! SUPPORT. The frame image, the parser's transition along R33 item 4, and the operand fields of a command word. -/

namespace Sys2Proof.Machine

/-! ### The frame the builder makes -/

theorem frame_length (sid : Byte) (src dst : Word) (otype : Half) (oid : Word) (pid : Half) (pay : Bytes) :
    (frame sid src dst otype oid pid pay).length = 26 + pay.length := by
  simp [frame, headerSection, dataSection, bytesBe16]
  omega

/-- The data size of a built frame is `10 + N` (R65). -/
theorem frame_dataSize (sid : Byte) (src dst : Word) (otype : Half) (oid : Word) (pid : Half) (pay : Bytes) :
    le16 (frame sid src dst otype oid pid pay) 10 = some (BitVec.ofNat 16 (10 + pay.length)) := by
  rw [le16_eq_some_iff]
  refine ⟨_, _, rfl, rfl, ?_⟩
  simp [append_bytes_of_half, Config.fixData]

/-- A build of a payload that fits answers (R89: "the build cannot overflow"). -/
theorem build_of_le {sid : Byte} {s : State} (h : s.txpay.length ≤ s.maxpay) :
    ∃ dacc, dacc = absorbAll accInit (dataSection sid s.totype s.toid s.tpid s.txpay) ∧
      build sid s = .next ((((s.setAcc dacc.1 dacc.2).setTx (frame sid s.tsrc s.tdst s.totype s.toid s.tpid s.txpay)).setPay
        [] .empty).respond (count (26 + s.txpay.length))) := by
  refine ⟨_, rfl, ?_⟩
  unfold build
  simp only []
  rw [memAppend_of_le (by simp [headerSection, dataSection, Config.maxFrame, Config.minFrame]; omega)]
  simp [frame, checksum, bytesBe16_accWord, Config.minFrame]

/-! ### The parser -/

/-- One byte in a state that is that function of RAW, and not S_DONE or S_FAULT: the transition is defined, it gives that
function of the longer RAW, and the byte fits. -/
theorem nextState_parserState {maxpay : Nat} {raw : Bytes} {v : Byte} {st : RxState} (hp : parserState maxpay raw = some st)
    (hd : st ≠ .done) (hf : st ≠ .fault) :
    ∃ st', nextState maxpay st raw.length (raw ++ [v]) = some st' ∧ parserState maxpay (raw ++ [v]) = some st' ∧
      (raw ++ [v]).length ≤ 26 + maxpay := by
  have hl : (raw ++ [v]).length = raw.length + 1 := by simp
  unfold parserState at hp
  split at hp
  · cases hp
    exact ⟨.hdr, by simp [nextState, *], by simp [parserState, *], by omega⟩
  split at hp
  · cases hp
    by_cases h : raw.length = 11
    · obtain ⟨d, hd⟩ := le16_exists (f := raw ++ [v]) (k := 10) (by simp; omega)
      by_cases hok : 10 ≤ d.toNat ∧ d.toNat ≤ 10 + maxpay
      · exact ⟨.hck, by simp [nextState, h, hd, sizeAccepted, Config.fixData, hok], by simp [parserState, h, hd, hok], by omega⟩
      · refine ⟨.fault, ?_, ?_, by omega⟩
        · simp [nextState, h, hd, sizeAccepted, Config.fixData]; grind
        · simp [parserState, h, hd]; grind
    · refine ⟨.hdr, ?_, ?_, by omega⟩
      · simp [nextState]; omega
      · simp [parserState]; omega
  split at hp
  · cases hp
  rename_i d hd
  have hd' := le16_append (g := [v]) hd
  split at hp
  · split at hp
    · cases hp; exact absurd rfl hf
    · cases hp
  rename_i h0 h11 hacc
  have hacc' : ¬ (10 ≤ d.toNat → 10 + maxpay < d.toNat) := by omega
  repeat' split at hp
  all_goals cases hp
  · by_cases h : raw.length = 12
    · exact ⟨.hck, by simp [nextState, h], by simp [parserState, h, hd', hacc'], by omega⟩
    · have h : raw.length = 13 := by omega
      refine ⟨.data, by simp [nextState, h], ?_, by omega⟩
      simp [parserState, h, hd', hacc']; grind
  · by_cases h : raw.length = 13 + d.toNat
    · refine ⟨.dck, by simp [nextState, h, hd'], ?_, by omega⟩
      simp [parserState, h, hd', hacc']; grind
    · refine ⟨.data, ?_, ?_, by omega⟩
      · simp [nextState, hd']; omega
      · simp [parserState, hd', hacc']; grind
  · by_cases h : raw.length = 15 + d.toNat
    · refine ⟨.done, by simp [nextState, h, hd'], ?_, by omega⟩
      simp [parserState, h, hd', hacc']; grind
    · have h : raw.length = 14 + d.toNat := by omega
      refine ⟨.dck, by simp [nextState, h, hd'], ?_, by omega⟩
      simp [parserState, h, hd', hacc']; grind
  · exact absurd rfl hd

/-- In S_DONE the payload length is defined and RAW holds the whole frame (R33 item 4, R24). -/
theorem parserState_done {maxpay : Nat} {raw : Bytes} (hp : parserState maxpay raw = some .done) :
    ∃ n, payloadLength raw = some n ∧ raw.length = 26 + n ∧ n ≤ maxpay := by
  unfold parserState at hp
  repeat' split at hp
  all_goals cases hp
  rename_i d hd _ _ _ _ _
  exact ⟨d.toNat - 10, payloadLength_eq_some_iff.mpr ⟨d, hd, by omega⟩, by omega, by omega⟩

/-! ### Values -/

theorem valueEncode_length {c : Codec} {v : Word} {b : Bytes} (h : valueEncode c v = .ok b) : b.length = c.width := by
  unfold valueEncode at h
  repeat' split at h
  all_goals simp only [Except.ok.injEq, reduceCtorEq] at h
  all_goals subst h; simp [Codec.width]

theorem valueEncode_error {c : Codec} {v : Word} {e : FaultCode} (h : valueEncode c v = .error e) : e = .range := by
  unfold valueEncode at h
  repeat' split at h
  all_goals simp_all

theorem valueDecode_error {c : Codec} {b : Bytes} {e : FaultCode} (h : valueDecode c b = some (.error e)) : e = .value := by
  unfold valueDecode at h
  repeat' split at h
  all_goals simp_all

end Sys2Proof.Machine

namespace Sys2Proof

/-! ### Operand fields -/

theorem byte_operand (v : Byte) : (0#24 ++ v : BitVec (24 + 8)).extractLsb' 8 24 = 0 ∧ (0#24 ++ v : BitVec (24 + 8)).extractLsb' 0 8 = v := by
  constructor <;> apply BitVec.eq_of_getLsbD_eq <;> intro i hi <;>
    simp only [BitVec.getLsbD_extractLsb', BitVec.getLsbD_append, decide_eq_true hi, Bool.true_and]
  · rw [if_neg (by omega)]; simp
  · rw [if_pos (by omega)]; congr 1; omega

theorem index_operand (v : Half) : (0#16 ++ v : BitVec (16 + 16)).extractLsb' 16 16 = 0 ∧ (0#16 ++ v : BitVec (16 + 16)).extractLsb' 0 16 = v := by
  constructor <;> apply BitVec.eq_of_getLsbD_eq <;> intro i hi <;>
    simp only [BitVec.getLsbD_extractLsb', BitVec.getLsbD_append, decide_eq_true hi, Bool.true_and]
  · rw [if_neg (by omega)]; simp
  · rw [if_pos (by omega)]; congr 1; omega

theorem tag_operand (v : BitVec 4) : (0#4 ++ v : BitVec (4 + 4)).extractLsb' 4 4 = 0 ∧ (0#4 ++ v : BitVec (4 + 4)).extractLsb' 0 4 = v := by
  revert v; decide

end Sys2Proof
end

