-- ==== Sys2Proof/Laws/Memory.lean ====
section
/-! SUPPORT. The buffers keep their form: cells at the addresses 0 … length−1, lengths within capacity. -/

namespace Sys2Proof.Machine

/-- The cell at address `k` of a buffer is its byte `k` (R35). -/
theorem bufferCells_getElem? (buf : Bytes) (k : Nat) : (bufferCells buf)[k]? = buf[k]?.map fun v => (k, v) := by
  simp only [bufferCells, List.getElem?_map, List.getElem?_zipIdx, Option.map_map]
  simp [Function.comp_def]

/-- The addresses of a buffer's cells are 0 … length−1, in order. -/
theorem bufferCells_addresses (buf : Bytes) : (bufferCells buf).map Prod.fst = List.range buf.length := by
  apply List.ext_getElem?
  intro k
  simp only [List.getElem?_map, bufferCells_getElem?, Option.map_map]
  by_cases h : k < buf.length
  · simp [List.getElem?_eq_getElem h, List.getElem?_range h]
  · simp [List.getElem?_eq_none (Nat.not_lt.mp h), List.getElem?_eq_none (l := List.range buf.length) (i := k) (by simpa using h)]

/-- The addresses of a buffer's cells rise strictly. -/
theorem bufferCells_sorted (buf : Bytes) : ((bufferCells buf).map Prod.fst).Pairwise (· < ·) := by
  rw [bufferCells_addresses]
  exact List.pairwise_lt_range

theorem memory_wf_iff {s : State} :
    Memory.wf s = true ↔ s.txpay.length ≤ s.maxpay ∧ s.txbuf.length ≤ 26 + s.maxpay ∧ s.raw.length ≤ 26 + s.maxpay := by
  simp only [Memory.wf, Bool.and_eq_true, decide_eq_true_eq, and_assoc]
  exact Iff.rfl

theorem memory_wf_reset : Memory.wf State.reset = true := by decide

/-- A successful append lies within the capacity. -/
theorem memAppend_length_le {capacity : Nat} {buf v out : Bytes} (h : memAppend capacity buf v = some out) :
    out.length ≤ capacity := by
  obtain ⟨hl, rfl⟩ := memAppend_eq_some_iff.mp h
  simpa using hl

/-- Writing TXPAY with an appended value keeps the form. -/
theorem memory_wf_setPay {s : State} {buf v out : Bytes} {k : PayKind} (hs : Memory.wf s = true)
    (h : memAppend s.maxpay buf v = some out) : Memory.wf (s.setPay out k) = true := by
  rw [memory_wf_iff] at hs ⊢
  exact ⟨memAppend_length_le h, hs.2⟩

/-- Emptying TXPAY keeps the form. -/
theorem memory_wf_clearPay {s : State} {k : PayKind} (hs : Memory.wf s = true) : Memory.wf (s.setPay [] k) = true := by
  rw [memory_wf_iff] at hs ⊢
  exact ⟨Nat.zero_le _, hs.2⟩

/-- Writing TXBUF keeps the form. -/
theorem memory_wf_setTx {s : State} {v out : Bytes} (hs : Memory.wf s = true)
    (h : memAppend (Config.maxFrame s.maxpay) [] v = some out) : Memory.wf (s.setTx out) = true := by
  rw [memory_wf_iff] at hs ⊢
  exact ⟨hs.1, memAppend_length_le h, hs.2.2⟩

/-- Appending to RAW keeps the form. -/
theorem memory_wf_setRx {s : State} {v out : Bytes} {st : RxState} (hs : Memory.wf s = true)
    (h : memAppend (Config.maxFrame s.maxpay) s.raw v = some out) : Memory.wf (s.setRx out st) = true := by
  rw [memory_wf_iff] at hs ⊢
  exact ⟨hs.1, hs.2.1, memAppend_length_le h⟩

/-- Emptying RAW keeps the form. -/
theorem memory_wf_clearRx {s : State} {st : RxState} (hs : Memory.wf s = true) : Memory.wf (s.setRx [] st) = true := by
  rw [memory_wf_iff] at hs ⊢
  exact ⟨hs.1, hs.2.1, Nat.zero_le _⟩

/-- The response, a fault, the accumulators and the decoded value are no part of the buffers. -/
theorem memory_wf_respond {s : State} (d : Word) : Memory.wf (s.respond d) = Memory.wf s := rfl

theorem memory_wf_raise {s : State} (c : FaultCode) : Memory.wf (s.raise c) = Memory.wf s := rfl

theorem memory_wf_setAcc {s : State} (x y : Byte) : Memory.wf (s.setAcc x y) = Memory.wf s := rfl

theorem memory_wf_setVal {s : State} (v : Word) (t : ValTag) : Memory.wf (s.setVal v t) = Memory.wf s := rfl

/-- SRST leaves the buffers empty. -/
theorem memory_wf_softReset (s : State) : Memory.wf s.softReset = true := by
  rw [memory_wf_iff]
  exact ⟨Nat.zero_le _, Nat.zero_le _, Nat.zero_le _⟩

end Sys2Proof.Machine
end

