-- ==== Sys2Proof/Laws/PerInstr.lean ====
section
/-! SUPPORT. Facts stated per constructor of `Instr`. -/

namespace Sys2Proof.Laws.EncodeFields

/-- The fields of the word a command encodes to are its opcode, its `sub` and its `imm` (R53, R57). -/
def Statement (i : Instr) : Prop :=
  opField (encode i) = opcode i ∧ subField (encode i) = subOf i ∧ immField (encode i) = immOf i

theorem of_any (i : Instr) : Statement i :=
  ⟨opField_cmdWord _ _ _, subField_cmdWord _ _ _, immField_cmdWord _ _ _⟩

theorem nop : Statement .nop := of_any _
theorem srst : Statement .srst := of_any _
theorem get (reg : BitVec 8) : Statement (.get reg) := of_any _
theorem set (reg : BitVec 8) (value : Word) : Statement (.set reg value) := of_any _
theorem csinit : Statement .csinit := of_any _
theorem csadd (v : Byte) : Statement (.csadd v) := of_any _
theorem csrd : Statement .csrd := of_any _
theorem txclr : Statement .txclr := of_any _
theorem bldrd : Statement .bldrd := of_any _
theorem bldwr : Statement .bldwr := of_any _
theorem txraw (n : Half) : Statement (.txraw n) := of_any _
theorem rxrst : Statement .rxrst := of_any _
theorem rxb (v : Byte) : Statement (.rxb v) := of_any _
theorem rxdec (rd : Bool) (fmt : BitVec 4) : Statement (.rxdec rd fmt) := of_any _
theorem rxerr : Statement .rxerr := of_any _
theorem rxraw (n : Half) : Statement (.rxraw n) := of_any _
theorem venc (fmt : BitVec 4) (value : Word) : Statement (.venc fmt value) := of_any _
theorem vdec (fmt : BitVec 4) (value : Word) : Statement (.vdec fmt value) := of_any _
theorem miadd (id : Byte) (ref : Half) : Statement (.miadd id ref) := of_any _
theorem asmcls (id : Byte) : Statement (.asmcls id) := of_any _
theorem bsflg : Statement .bsflg := of_any _
theorem bstime : Statement .bstime := of_any _
theorem bscnt : Statement .bscnt := of_any _
theorem bsref (n : Half) : Statement (.bsref n) := of_any _
theorem bsagg (n : Half) : Statement (.bsagg n) := of_any _
theorem bsval (n : Half) : Statement (.bsval n) := of_any _

end Sys2Proof.Laws.EncodeFields
end

