-- ==== Sys2Proof/WellFormed.lean ====
section
/-! DEFINITION. Which commands are legal as words (30_encoding.md R64). Every operand has its format's width by its
type, so clauses (a) and (b) of R64 cannot arise for an `Instr`; clause (c) is what is checked here. -/

namespace Sys2Proof

/-- R64 (c) for GET: the register number is assigned in R26. -/
def getNumberLegal (reg : BitVec 8) : Bool :=
  (Machine.Reg.ofNumber reg).isSome

/-- R64 (c) for SET: the register number is assigned and the register is writable. -/
def setNumberLegal (reg : BitVec 8) : Bool :=
  match Machine.Reg.ofNumber reg with
  | some r => r.writable
  | none => false

/-- A command that is not illegal in the sense of R64. -/
def WellFormed (i : Instr) : Bool :=
  match i with
  | .get reg => getNumberLegal reg
  | .set reg _ => setNumberLegal reg
  | .nop | .srst | .csinit | .csadd _ | .csrd | .txclr | .bldrd | .bldwr | .txraw _ | .rxrst | .rxb _
  | .rxdec _ _ | .rxerr | .rxraw _ | .venc _ _ | .vdec _ _ | .miadd _ _ | .asmcls _ | .bsflg | .bstime
  | .bscnt | .bsref _ | .bsagg _ | .bsval _ => true

end Sys2Proof
end

