-- ==== Sys2Proof/Tests/Slice0.lean ====
section
/-! SUPPORT. Tests: every expected value is taken from spec/95, 96, 97 (test vectors) or from the example of the command's
rule, unless the comment says otherwise. The witnesses show, for every statement with hypotheses, values that meet them. -/

namespace Sys2Proof.Tests

open Sys2Proof Sys2Proof.Machine

/-! ### Helpers -/

/-- The outcome is a next state of which `p` holds. -/
def nextIs (r : Result) (p : State → Bool) : Bool :=
  match r with
  | .next t => p t
  | _ => false

/-- The outcome is a next state with the response (status, data). -/
def answers (r : Result) (status : Byte) (data : Word) : Bool := nextIs r fun t => t.rsp == some ⟨status, data⟩

/-- Whether a word decodes to a command. -/
def decodesTo (w : CmdWord) (i : Instr) : Bool :=
  match decode w with
  | .ok j => j == i
  | .error _ => false

def refusesWord (w : CmdWord) : Bool :=
  match decode w with
  | .ok _ => false
  | .error _ => true

/-- The reset state with these bytes received and this parser state. -/
def received (raw : Bytes) (st : RxState) : State := { State.reset with raw := raw, rxst := st }

/-- Frame B1 of 96_test_vectors_checksum_frames.md: a plain read request, also the example of R87. -/
def frameB1 : Bytes :=
  [0xAA#8, 0x00#8, 0x01#8, 0x00#8, 0x00#8, 0x00#8, 0x65#8, 0x00#8, 0x00#8, 0x00#8, 0x0A#8, 0x00#8, 0x6F#8, 0x71#8] ++
  [0x00#8, 0x01#8, 0x01#8, 0x00#8, 0xB8#8, 0x0B#8, 0x00#8, 0x00#8, 0x01#8, 0x00#8, 0xC5#8, 0x90#8]

/-- Frame B8: a read request with negative descriptor values. -/
def frameB8 : Bytes :=
  [0xAA#8, 0x00#8, 0xFF#8, 0xFF#8, 0xFF#8, 0xFF#8, 0x00#8, 0x00#8, 0x00#8, 0x80#8, 0x0A#8, 0x00#8, 0x85#8, 0x67#8] ++
  [0x00#8, 0x01#8, 0xFE#8, 0xFF#8, 0xFD#8, 0xFF#8, 0xFF#8, 0xFF#8, 0x00#8, 0x80#8, 0x77#8, 0x4A#8]

/-- The first 24 bytes of the frames of 96 section 2.4, with data size low byte `d`, service flags `f` and id `i`. -/
def headOf (d k f i : Byte) : Bytes :=
  [0xAA#8, 0x00#8, 0x65#8, 0x00#8, 0x00#8, 0x00#8, 0x01#8, 0x00#8, 0x00#8, 0x00#8, d, 0x00#8, 0x73#8, k] ++
  [f, i, 0x02#8, 0x00#8, 0x53#8, 0x04#8, 0x00#8, 0x00#8, 0x05#8, 0x00#8]

/-- Frame R: a normal response with payload 78 56 34 92. -/
def frameR : Bytes := headOf 0x0E#8 0x09#8 0x02#8 0x01#8 ++ [0x78#8, 0x56#8, 0x34#8, 0x92#8, 0xF4#8, 0x8F#8]

/-- Frame V: R with the reserved service flags 0x01. -/
def frameV : Bytes := headOf 0x0E#8 0x09#8 0x01#8 0x01#8 ++ [0x78#8, 0x56#8, 0x34#8, 0x92#8, 0xF3#8, 0x81#8]

/-- The error response of 95 E7: payload 00 25. -/
def frameE7 : Bytes :=
  [0xAA#8, 0x00#8, 0x65#8, 0x00#8, 0x00#8, 0x00#8, 0x01#8, 0x00#8, 0x00#8, 0x00#8, 0x0C#8, 0x00#8, 0x71#8, 0x05#8] ++
  [0x03#8, 0x02#8, 0x02#8, 0x00#8, 0x53#8, 0x04#8, 0x00#8, 0x00#8, 0x05#8, 0x00#8, 0x00#8, 0x25#8, 0x87#8, 0x2F#8]

/-- The byte-stream response of 95 E6: one record (1, Sum, 12.5). -/
def frameE6 : Bytes :=
  [0xAA#8, 0x00#8, 0x65#8, 0x00#8, 0x00#8, 0x00#8, 0x01#8, 0x00#8, 0x00#8, 0x00#8, 0x19#8, 0x00#8, 0x7E#8, 0x1F#8] ++
  [0x02#8, 0x01#8, 0x01#8, 0x00#8, 0xB8#8, 0x0B#8, 0x00#8, 0x00#8, 0x01#8, 0x00#8] ++
  [0x13#8, 0x00#8, 0x00#8, 0x00#8, 0x00#8, 0xF1#8, 0x53#8, 0x65#8, 0x01#8, 0x00#8, 0xFE#8, 0x00#8, 0x00#8, 0x48#8, 0x41#8] ++
  [0x0B#8, 0xB5#8]

/-- The descriptor of the examples of R87 and R88. -/
def described (otype : Half) (oid : Word) (pid : Half) : State :=
  { State.reset with tsrc := 1#32, tdst := 101#32, totype := otype, toid := oid, tpid := pid }

/-- A state with a payload being assembled. -/
def assembling (pay : Bytes) (kind : PayKind) : State := { State.reset with txpay := pay, txpk := kind }

/-! ### WellFormed refuses what R64 (c) calls illegal -/

theorem test_wellFormed_get_unassigned : WellFormed (.get 0x05#8) = false := by decide
theorem test_wellFormed_set_readOnly : WellFormed (.set 0x08#8 0#32) = false := by decide
theorem test_wellFormed_set_unassigned : WellFormed (.set 0x7F#8 0#32) = false := by decide
theorem test_wellFormed_accepts : WellFormed (.get 0x7E#8) = true ∧ WellFormed (.set 0x04#8 7#32) = true := by decide

/-! ### Decoding: one word per command, written out from the encodings of R57 and R62 -/

theorem test_decode_system : decodesTo 0x000000000000#48 .nop ∧ decodesTo 0x010000000000#48 .srst ∧
    decodesTo 0x022F00000000#48 (.get 0x2F#8) ∧ decodesTo 0x0302FFFFFFFE#48 (.set 0x02#8 0xFFFFFFFE#32) := by decide

theorem test_decode_checksum : decodesTo 0x100000000000#48 .csinit ∧ decodesTo 0x1100000000FF#48 (.csadd 0xFF#8) ∧
    decodesTo 0x120000000000#48 .csrd := by decide

theorem test_decode_builder : decodesTo 0x200000000000#48 .txclr ∧ decodesTo 0x210000000000#48 .bldrd ∧
    decodesTo 0x220000000000#48 .bldwr ∧ decodesTo 0x23000000001A#48 (.txraw 26#16) := by decide

theorem test_decode_parser : decodesTo 0x300000000000#48 .rxrst ∧ decodesTo 0x3100000000AA#48 (.rxb 0xAA#8) ∧
    decodesTo 0x321300000000#48 (.rxdec true 3#4) ∧ decodesTo 0x320600000000#48 (.rxdec false 6#4) ∧
    decodesTo 0x330000000000#48 .rxerr ∧ decodesTo 0x34000000FFFF#48 (.rxraw 0xFFFF#16) := by decide

theorem test_decode_codec : decodesTo 0x4001FFFF8000#48 (.venc 1#4 0xFFFF8000#32) ∧
    decodesTo 0x41010000FFFE#48 (.vdec 1#4 0x0000FFFE#32) := by decide

theorem test_decode_multiInfo : decodesTo 0x500000FD0BB8#48 (.miadd 253#8 3000#16) ∧
    decodesTo 0x5100000000FE#48 (.asmcls 254#8) := by decide

theorem test_decode_byteStream : decodesTo 0x600000000000#48 .bsflg ∧ decodesTo 0x610000000000#48 .bstime ∧
    decodesTo 0x620000000000#48 .bscnt ∧ decodesTo 0x630000000001#48 (.bsref 1#16) ∧
    decodesTo 0x640000000002#48 (.bsagg 2#16) ∧ decodesTo 0x650000000003#48 (.bsval 3#16) := by decide

/-- R58: a reserved bit that is 1, one format after the other; R64: an unassigned opcode. -/
theorem test_decode_refuses : refusesWord 0x000000000001#48 ∧ refusesWord 0x110000000100#48 ∧ refusesWord 0x230000010000#48 ∧
    refusesWord 0x022F00000001#48 ∧ refusesWord 0x322000000000#48 ∧ refusesWord 0x401000000000#48 ∧
    refusesWord 0x500001000000#48 ∧ refusesWord 0x510100000000#48 ∧ refusesWord 0x040000000000#48 ∧
    refusesWord 0xFF0000000000#48 := by decide

theorem test_decodeTableWord : decodeTableWord 48 0x500000FD0BB8 = some (.miadd 253#8 3000#16) ∧
    decodeTableWord 48 0x660000000000 = none := by decide

/-! ### One step -/

theorem test_step_runs_presented_word : answers (step (State.reset.withFetchWord 48 0x5100000000FD)) 0x00#8 0x000200FD#32 := by
  decide

/-- R64: `sub = 1` in a format Z word sets FLT[1]. -/
theorem test_step_illegal : nextIs (step (State.reset.withFetchWord 48 0x000100000000))
    (fun t => t.flt == 0x0002#16 && t.rsp == some ⟨0x01#8, 0#32⟩) := by decide

theorem test_nop : answers (exec .nop State.reset) 0x00#8 0#32 := by decide

theorem test_srst : nextIs (exec .srst { received frameB1 .done with flt := 0x0020#16, a := 0x12#8 })
    (fun t => t.flt == 0#16 && t.a == 0xFF#8 && t.raw == []) := by decide

/-- 96 section 2.3: FE FF sign-extended. -/
theorem test_get_sign_extends : answers (exec (.get 0x2A#8) (received frameB8 .done)) 0x00#8 0xFFFFFFFE#32 := by decide

theorem test_get_rxflg : answers (exec (.get 0x2F#8) (received frameE7 .done)) 0x00#8 0x0000001F#32 := by decide

/-- R130 corner case: 32768 faults, −32768 stores 0x8000. -/
theorem test_set_range : nextIs (exec (.set 0x04#8 0x00008000#32) State.reset) (fun t => t.flt == 0x0008#16 && t.tpid == 0#16) := by
  decide

theorem test_set_negative : nextIs (exec (.set 0x04#8 0xFFFF8000#32) State.reset) (fun t => t.tpid == 0x8000#16) := by decide

theorem test_csinit : nextIs (exec .csinit { State.reset with a := 0x12#8, b := 0x34#8 }) (fun t => t.a == 0xFF#8 && t.b == 0#8) := by
  decide

/-- R82: A wraps, B adds the new A. -/
theorem test_csadd_wraps : answers (exec (.csadd 0x01#8) State.reset) 0x00#8 0x00000000#32 := by decide

theorem test_csadd_uses_new_a : answers (exec (.csadd 0x03#8) { State.reset with a := 0x02#8, b := 0x02#8 }) 0x00#8 0x00000507#32 := by
  decide

theorem test_csrd : answers (exec .csrd { State.reset with a := 0x6F#8, b := 0x71#8 }) 0x00#8 0x00006F71#32 := by decide

theorem test_txclr : nextIs (exec .txclr (assembling [] .abort)) (fun t => t.txpk == .empty && t.rsp == some ⟨0x00#8, 0#32⟩) := by
  decide

/-- R87, example. -/
theorem test_bldrd : nextIs (exec .bldrd (described 1#16 3000#32 1#16))
    (fun t => t.txbuf == frameB1 && t.a == 0xC5#8 && t.b == 0x90#8) := by decide

/-- R88, example: the last six bytes of the write of 12.5, and the payload consumed. -/
theorem test_bldwr : nextIs (exec .bldwr { described 2#16 1107#32 5#16 with txpay := [0x00#8, 0x00#8, 0x48#8, 0x41#8], txpk := .value })
    (fun t => t.txbuf.drop 24 == [0x00#8, 0x00#8, 0x48#8, 0x41#8, 0xE8#8, 0x75#8] && t.txpay == []) := by decide

theorem test_txraw : answers (exec (.txraw 12#16) { State.reset with txbuf := frameB1 }) 0x00#8 0x6F#32 := by decide

theorem test_txraw_short : answers (exec (.txraw 26#16) { State.reset with txbuf := frameB1 }) 0x07#8 0#32 := by decide

theorem test_rxrst : nextIs (exec .rxrst { received frameB1 .done with flt := 4#16, ptag := .int })
    (fun t => t.raw == [] && t.rxst == .sof && t.ptag == .none && t.flt == 4#16) := by decide

/-- R94, R95: the byte at offset 11 that completes data size 9 stays consumed. -/
theorem test_rxb_len : nextIs (exec (.rxb 0x00#8) (received (frameB1.take 10 ++ [0x09#8]) .hdr))
    (fun t => t.raw.length == 12 && t.rxst == .fault && t.rsp == some ⟨0x06#8, 0#32⟩) := by decide

theorem test_rxb_last : answers (exec (.rxb 0x90#8) (received (frameB1.take 25) .dck)) 0x00#8 5#32 := by decide

/-- 96 section 2.4: the same response frame, 4 bytes with `.rd`, 2 bytes with `.wr`. -/
theorem test_rxdec_rd : answers (exec (.rxdec true 3#4) (received frameR .done)) 0x00#8 0x92345678#32 := by decide

theorem test_rxdec_wr : answers (exec (.rxdec false 2#4) (received frameR .done)) 0x00#8 0x00005678#32 := by decide

theorem test_rxerr : answers (exec .rxerr (received frameE7 .done)) 0x00#8 0x00000025#32 := by decide

theorem test_rxerr_sflags : answers (exec .rxerr (received frameR .done)) 0x09#8 0#32 := by decide

theorem test_rxraw : answers (exec (.rxraw 0#16) (received [0xAA#8, 0x00#8] .hdr)) 0x00#8 0xAA#32 ∧
    answers (exec (.rxraw 2#16) (received [0xAA#8, 0x00#8] .hdr)) 0x07#8 0#32 := by decide

/-- 95 E3. -/
theorem test_venc_shortEnum : nextIs (exec (.venc 1#4 0xFFFFFFFE#32) State.reset)
    (fun t => t.txpay == [0xFE#8, 0xFF#8] && t.txpk == .value) := by decide

theorem test_venc_bool_range : answers (exec (.venc 0#4 2#32) State.reset) 0x03#8 0#32 := by decide

theorem test_vdec_shortEnum : answers (exec (.vdec 1#4 0x8000#32) State.reset) 0x00#8 0xFFFF8000#32 := by decide

theorem test_vdec_bool_order : answers (exec (.vdec 0#4 0x100#32) State.reset) 0x03#8 0#32 ∧
    answers (exec (.vdec 0#4 2#32) State.reset) 0x04#8 0#32 := by decide

/-- 95 E4: the second group. -/
theorem test_miadd : nextIs (exec (.miadd 2#8 3001#16) (assembling [0xB8#8, 0x0B#8, 0xFD#8] .minfo))
    (fun t => t.txpay == [0xB8#8, 0x0B#8, 0xFD#8, 0xB9#8, 0x0B#8, 0x02#8] && t.rsp == some ⟨0x00#8, 6#32⟩) := by decide

theorem test_miadd_abort : nextIs (exec (.miadd 16#8 3001#16) (assembling [0xB8#8, 0x0B#8, 0xFD#8] .minfo))
    (fun t => t.txpay == [] && t.txpk == .abort && t.flt == 0x0100#16) := by decide

theorem test_asmcls : answers (exec (.asmcls 253#8) State.reset) 0x00#8 0x000200FD#32 ∧
    answers (exec (.asmcls 16#8) State.reset) 0x00#8 0x00070010#32 := by decide

theorem test_bsflg : answers (exec .bsflg (received frameE6 .done)) 0x00#8 0x00000013#32 ∧
    contextVersion 0x13#32 = 3#4 ∧ contextIsGsm 0x13#32 = true ∧ contextXt 0x13#32 = false := by decide

theorem test_bstime : answers (exec .bstime (received frameE6 .done)) 0x00#8 0x6553F100#32 := by decide

theorem test_bscnt : answers (exec .bscnt (received frameE6 .done)) 0x00#8 1#32 := by decide

theorem test_bsref : answers (exec (.bsref 0#16) (received frameE6 .done)) 0x00#8 1#32 := by decide

theorem test_bsref_short : answers (exec (.bsref 1#16) (received frameE6 .done)) 0x07#8 0#32 := by decide

theorem test_bsagg : answers (exec (.bsagg 0#16) (received frameE6 .done)) 0x00#8 0x000300FE#32 := by decide

theorem test_bsval : answers (exec (.bsval 0#16) (received frameE6 .done)) 0x00#8 0x41480000#32 := by decide

/-! ### Witnesses: values that meet the hypotheses of each statement -/

theorem inv_received {raw : Bytes} {st : RxState} (hl : raw.length ≤ 282) (hp : parserState 256 raw = some st) :
    Inv (received raw st) where
  config := (by decide : 8 ≤ 256 ∧ 256 ≤ 32757)
  lengths := ⟨Nat.zero_le _, Nat.zero_le _, hl⟩
  kind := rfl
  built := .inl rfl
  parser := hp
  valueZero := fun _ => rfl
  valueFrame := fun h => absurd rfl h
  fltLow := BitVec.getLsbD_zero
  fltHigh := fun k _ => BitVec.getLsbD_zero

/-- EncodeWritesBackDecode, DecodeFollowsOpcodeMap: a word that decodes, a word that selects a row, a word that selects none. -/
theorem witness_decode : decode 0x500000FD0BB8#48 = .ok (.miadd 253#8 3000#16) ∧
    (∃ r ∈ opcodeMap, r.selects 0x321300000000#48 = true) ∧ (∀ r ∈ opcodeMap, r.selects 0x321300000001#48 = false) := by
  refine ⟨rfl, ?_, ?_⟩ <;> decide

/-- IllegalWordSetsOnlyFltBit: R64 (a), (b), (c), with each word presented. -/
theorem witness_illegalWord : (State.reset.present 0x040000000000#48).cmds = 0x040000000000#48 :: [] ∧
    IllegalWord 0x040000000000#48 ∧ IllegalWord 0x000000000001#48 ∧ IllegalWord 0x020500000000#48 ∧
    IllegalWord 0x030500000000#48 := by
  refine ⟨rfl, .inl ?_, .inl ?_, .inr (.inl ?_), .inr (.inr ?_)⟩ <;> decide

/-- StepRunsDecodedCommand, EveryWordHasDefinedResult, FaultRecordIsSticky: a presented word that decodes, in a state of the
invariant; IdleKeepsState: no word. -/
theorem witness_presented : (State.reset.present 0x1100000000FF#48).cmds = 0x1100000000FF#48 :: [] ∧
    decode 0x1100000000FF#48 = .ok (.csadd 0xFF#8) ∧ State.reset.cmds = [] := ⟨rfl, rfl, rfl⟩

theorem witness_invariant : Inv State.reset ∧ Inv (received frameB1 .done) ∧ Inv (received (frameB1.take 11) .hdr) :=
  ⟨inv_received (raw := []) (st := .sof) (by decide) (by decide), inv_received (by decide) (by decide),
    inv_received (by decide) (by decide)⟩

/-- The clauses RefusesWords: a word of each opcode that its format does not allow, presented. -/
theorem witness_refusedWords_Z : ∀ op ∈ [0x00#8, 0x01#8, 0x10#8, 0x12#8, 0x20#8, 0x21#8, 0x22#8, 0x30#8, 0x33#8, 0x60#8, 0x61#8, 0x62#8],
    (State.reset.present (cmdWord op 0#8 1#32)).cmds = [cmdWord op 0#8 1#32] ∧ opField (cmdWord op 0#8 1#32) = op ∧
    ¬ AllowedZ (subField (cmdWord op 0#8 1#32)) (immField (cmdWord op 0#8 1#32)) := by
  unfold AllowedZ
  decide

theorem witness_refusedWords_I8 : ∀ op ∈ [0x11#8, 0x31#8, 0x51#8],
    opField (cmdWord op 0#8 0x100#32) = op ∧
    ¬ AllowedI8 (subField (cmdWord op 0#8 0x100#32)) (immField (cmdWord op 0#8 0x100#32)) := by
  unfold AllowedI8
  decide

theorem witness_refusedWords_I16 : ∀ op ∈ [0x23#8, 0x34#8, 0x63#8, 0x64#8, 0x65#8],
    opField (cmdWord op 0#8 0x10000#32) = op ∧
    ¬ AllowedI16 (subField (cmdWord op 0#8 0x10000#32)) (immField (cmdWord op 0#8 0x10000#32)) := by
  unfold AllowedI16
  decide

theorem witness_refusedWords_rest : ¬ AllowedF (subField 0x322000000000#48) (immField 0x322000000000#48) ∧
    ¬ AllowedFI (subField 0x401000000000#48) (immField 0x401000000000#48) ∧
    ¬ AllowedFI (subField 0x411000000000#48) (immField 0x411000000000#48) ∧
    ¬ AllowedM (subField 0x500001000000#48) (immField 0x500001000000#48) ∧
    ¬ (immField 0x020000000001#48 = 0#32 ∧ subField 0x020000000001#48 ∈ assignedNumbers) ∧
    ¬ (subField 0x030800000000#48 ∈ writableNumbers) := by
  unfold AllowedF AllowedFI AllowedM
  decide

/-- GetReadsRegisters: the lengths. -/
theorem witness_get_lengths : State.reset.txbuf.length < 65536 ∧ State.reset.txpay.length < 65536 ∧
    (received frameB1 .done).raw.length < 65536 := by decide

/-- GetReadsFrameFields, GetReadsFrameFlags: frame B1, no payload; frame E6, 15 bytes of payload. -/
theorem witness_frameFields : Inv (received frameB1 .done) ∧ (received frameB1 .done).rxst = .done ∧
    HoldsPayload (received frameB1 .done) 0 ∧ HoldsPayload (received frameE6 .done) 15 ∧
    frameB1[0]? = some 0xAA#8 ∧ frameB1[14]? = some 0x00#8 ∧ be16 frameB1 12 = some 0x6F71#16 ∧
    be16 frameB1 (24 + 0) = some 0xC590#16 :=
  ⟨inv_received (by decide) (by decide), rfl, ⟨rfl, 10#16, by decide, by decide⟩, ⟨rfl, 25#16, by decide, by decide⟩,
    rfl, rfl, by decide, by decide⟩

/-- GetFaultsWhereUndefined: the ends of the ranges. -/
theorem witness_get_faults : 0x05#8 ∉ assignedNumbers ∧ 0xFF#8 ∉ assignedNumbers ∧ 0x22#8 ∈ frameNumbers ∧
    0x2F#8 ∈ frameNumbers ∧ State.reset.rxst ≠ .done := by decide

/-- SetWritesDescriptor: the ends of the signed range, the values next to them, a read-only and an unassigned number. -/
theorem witness_set : (-32768 ≤ (0xFFFF8000#32).toInt ∧ (0x7FFF#32).toInt ≤ 32767) ∧ ¬ ((0x8000#32).toInt ≤ 32767) ∧
    ¬ (-32768 ≤ (0xFFFF7FFF#32).toInt) ∧ 0x08#8 ∉ writableNumbers ∧ 0x05#8 ∉ writableNumbers := by decide

/-- GetAfterSetReturnsValue: a run with another SET and a fault between. -/
theorem witness_getAfterSet : 0x02#8 ∈ writableNumbers ∧
    (∃ t, exec (.set 0x02#8 0xFFFFFFFE#32) State.reset = .next t ∧ Succeeded t ∧
      ∃ u, runAll [.set 0x04#8 7#32, .get 0x05#8, .csinit] t = .next u) :=
  ⟨by decide, _, rfl, ⟨_, rfl⟩, _, rfl⟩

/-- ChecksumOfAbsorbedSequence: two bytes with a NOP and a RXRST between. -/
theorem witness_absorbed : (∀ i ∈ [Instr.csadd 1#8, .nop, .rxrst, .csadd 2#8], writesAcc i = true → (csaddByte i).isSome = true) ∧
    [Instr.csadd 1#8, .nop, .rxrst, .csadd 2#8].filterMap csaddByte = [1#8, 2#8] ∧
    ∃ t, runAll (.csinit :: [.csadd 1#8, .nop, .rxrst, .csadd 2#8]) State.reset = .next t :=
  ⟨by decide, rfl, _, rfl⟩

/-- BldrdBuildsReadRequest, BldwrBuildsWriteRequest: each kind, and a payload of exactly MAXPAY = 9 bytes. -/
theorem witness_build : State.reset.txpk = .empty ∧ State.reset.txpay.length ≤ State.reset.maxpay ∧
    (assembling [0#8, 0#8, 1#8] .minfo).txpk = .minfo ∧
    (assembling [0#8, 0#8, 1#8, 0#8, 0#8, 1#8, 0#8, 0#8, 1#8] .minfo).txpay.length ≤ 9 ∧
    (assembling [1#8] .value).txpk = .value ∧ (assembling [] .abort).txpk = .abort := by decide

/-- BuiltFrameHasWireLayout. -/
theorem witness_layout : (List.replicate 32757 0#8 : Bytes).length ≤ 32757 ∧
    frameB1 = frame 0x01#8 1#32 101#32 1#16 3000#32 1#16 [] := ⟨List.length_replicate.le, by decide⟩

/-- TxrawReadsBuiltFrame, RxrawReadsReceivedBytes: the last byte and the first index past it. -/
theorem witness_raw : frameB1[(25#16).toNat]? = some 0x90#8 ∧ frameB1.length ≤ (26#16).toNat := by decide

/-- BuildParseRoundTrip: a plain read and a write that succeed, from states of the invariant. -/
theorem witness_roundTrip : Inv State.reset ∧ (∃ t, exec .bldrd State.reset = .next t ∧ Succeeded t) ∧
    Inv (assembling [1#8] .value) ∧ (∃ t, exec .bldwr (assembling [1#8] .value) = .next t ∧ Succeeded t) :=
  ⟨witness_invariant.1, ⟨_, rfl, _, rfl⟩,
    { config := by decide, lengths := by decide, kind := .inl rfl, built := .inl rfl, parser := rfl,
      valueZero := fun _ => rfl, valueFrame := fun h => absurd rfl h, fltLow := by decide,
      fltHigh := fun k _ => BitVec.getLsbD_zero }, ⟨_, rfl, _, rfl⟩⟩

/-- RxbFollowsTransitionTable, the rows up to the data size: first byte, offsets 1 and 10, and offset 11 with the data sizes 10,
266 (accepted) and 9, 267 (refused). -/
theorem witness_rxb_header : (received [] .sof).raw.length < 26 + 256 ∧
    (received (frameB1.take 1) .hdr).raw.length = 1 ∧ (received (frameB1.take 10) .hdr).raw.length = 10 ∧
    (received (frameB1.take 11) .hdr).raw.length = 11 ∧
    le16 (frameB1.take 11 ++ [0x00#8]) 10 = some 10#16 ∧ le16 (frameB1.take 11 ++ [0x01#8]) 10 = some 266#16 ∧
    le16 (frameB1.take 10 ++ [0x09#8] ++ [0x00#8]) 10 = some 9#16 ∧
    le16 (frameB1.take 10 ++ [0x0B#8] ++ [0x01#8]) 10 = some 267#16 := by decide

/-- The rows after it: offsets 12, 13, and for data size 10 the offsets 14, 22, 23, 24, 25. -/
theorem witness_rxb_data : (frameB1.take 12).length = 12 ∧ (frameB1.take 13).length = 13 ∧
    le16 (frameB1.take 14) 10 = some 10#16 ∧ (frameB1.take 14).length = 14 ∧ (frameB1.take 22).length = 12 + (10#16).toNat ∧
    (frameB1.take 23).length = 13 + (10#16).toNat ∧ (frameB1.take 24).length = 14 + (10#16).toNat ∧
    (frameB1.take 25).length = 15 + (10#16).toNat := by decide

theorem witness_rxb_refused : (received frameB1 .done).rxst = .done ∧ (received (frameB1.take 12) .fault).rxst = .fault :=
  ⟨rfl, rfl⟩

/-- RxdecChecksInOrder: the first unsupported tag, the last supported one, reserved service flags. -/
theorem witness_rxdec_checks : 6 ≤ (6#4).toNat ∧ (5#4).toNat ≤ 5 ∧ State.reset.rxst ≠ .done ∧
    (received frameV .done).rxst = .done ∧ (received frameV .done).raw[14]? = some 0x01#8 ∧
    0x01#8 ≠ 0x00#8 ∧ 0x01#8 ≠ 0x02#8 ∧ 0x01#8 ≠ 0x03#8 := by decide

/-- RxdecDecodesPayload: no payload; a payload of 15 bytes; a payload below the width; each width. -/
theorem witness_rxdec : HoldsPayload (received frameB1 .done) 0 ∧ frameB1[14]? = some 0x00#8 ∧
    HoldsPayload (received frameE6 .done) 15 ∧ frameE6[14]? = some 0x02#8 ∧
    HoldsPayload (received frameE7 .done) 2 ∧ frameE7[14]? = some 0x03#8 ∧ frameE7[24]? = some 0x00#8 ∧
    le16 frameE7 24 = some 0x2500#16 ∧ 2 < 4 ∧
    HoldsPayload (received frameR .done) 4 ∧ frameR[14]? = some 0x02#8 ∧ le32 frameR 24 = some 0x92345678#32 :=
  ⟨⟨rfl, 10#16, by decide, by decide⟩, rfl, ⟨rfl, 25#16, by decide, by decide⟩, rfl, ⟨rfl, 12#16, by decide, by decide⟩,
    rfl, rfl, by decide, by decide, ⟨rfl, 14#16, by decide, by decide⟩, rfl, by decide⟩

/-- RxerrReturnsErrorCode: not an error response; an error response of 2 bytes, and one of 1 byte. -/
theorem witness_rxerr : (received frameR .done).raw[14]? = some 0x02#8 ∧
    HoldsPayload (received frameE7 .done) 2 ∧ frameE7[14]? = some 0x03#8 ∧ frameE7[24]? = some 0x00#8 ∧ frameE7[25]? = some 0x25#8 ∧
    HoldsPayload (received (headOf 0x0B#8 0x05#8 0x03#8 0x02#8 ++ [0x00#8, 0x00#8, 0x00#8]) .done) 1 ∧
    (headOf 0x0B#8 0x05#8 0x03#8 0x02#8)[14]? = some 0x03#8 :=
  ⟨rfl, ⟨rfl, 12#16, by decide, by decide⟩, rfl, rfl, rfl, ⟨rfl, 11#16, by decide, by decide⟩, rfl⟩

/-- VencEncodesValue, VdecDecodesOperand: the first tag without a codec, the last with one, the kinds. -/
theorem witness_codec : 5 ≤ (5#4).toNat ∧ (4#4).toNat ≤ 4 ∧ (assembling [1#8] .value).txpk ≠ .empty ∧ State.reset.txpk = .empty ∧
    8 ≤ State.reset.maxpay := by decide

/-- ValueRoundTripsThroughVdec, ValueRoundTripsThroughFrame: −2 as a short_enum. -/
theorem witness_valueRoundTrip : Inv State.reset ∧ ∃ t, exec (.venc 1#4 0xFFFFFFFE#32) State.reset = .next t ∧ Succeeded t ∧
    (0x0000FFFE#32).toNat = (t.txpay.zipIdx.map fun p => p.1.toNat * 256 ^ p.2).sum :=
  ⟨witness_invariant.1, _, rfl, ⟨_, rfl⟩, by decide⟩

/-- MiaddAppendsGroup, with MAXPAY = 9: the last group that fits (6 + 3), the first that does not (7 + 3), valid and invalid ids at their ends. -/
theorem witness_miadd : State.reset.txpk = .empty ∧ (assembling (List.replicate 6 0#8) .minfo).txpk = .minfo ∧
    (List.replicate 6 0#8 : Bytes).length + 3 ≤ 9 ∧ 9 < (List.replicate 7 0#8 : Bytes).length + 3 ∧
    (15#8).toNat ≤ 15 ∧ 16 ≤ (16#8).toNat ∧ (255#8).toNat ≠ 253 ∧ (255#8).toNat ≠ 254 ∧
    (assembling [1#8] .value).txpk = .value ∧ (assembling [] .abort).txpk = .abort := by decide

/-- AbortLocksBuilderUntilTxclr: an aborted request of each cause. -/
theorem witness_abort : (∃ t, exec (.miadd 16#8 1#16) State.reset = .next t ∧ FaultedWith t 8) ∧
    (∃ t, exec (.miadd 0#8 1#16) { assembling [0#8, 0#8, 0#8, 0#8, 0#8, 0#8] .minfo with maxpay := 8 } = .next t ∧ FaultedWith t 6) ∧
    3 ≤ State.reset.maxpay :=
  ⟨⟨_, rfl, rfl⟩, ⟨_, rfl, rfl⟩, by decide⟩

/-- MultiInfoReadBuildsAllGroups: the two groups of 95 E4, and the largest number of groups, 85. -/
theorem witness_multiInfo : Inv State.reset ∧ State.reset.txpk = .empty ∧ [(253#8, 3000#16), (2#8, 3001#16)].length * 3 ≤ State.reset.maxpay ∧
    (∀ g ∈ [((253#8 : Byte), (3000#16 : Half)), (2#8, 3001#16)], g.1.toNat ≤ 15 ∨ g.1.toNat = 253 ∨ g.1.toNat = 254) ∧
    85 * 3 ≤ State.reset.maxpay :=
  ⟨witness_invariant.1, rfl, by decide, by simp, by decide⟩

/-- The BS commands: the last record there is and the first that is not, of E6's 15 bytes; a payload below 8 bytes; no frame. -/
theorem witness_byteStream : HoldsPayload (received frameE6 .done) 15 ∧ 8 ≤ 15 ∧ le32 frameE6 24 = some 0x13#32 ∧
    le32 frameE6 28 = some 0x6553F100#32 ∧ frameE6[24]? = some 0x13#8 ∧ frameE6[25]? = some 0x00#8 ∧
    8 + 7 * ((0#16).toNat + 1) ≤ 15 ∧ 15 < 8 + 7 * ((1#16).toNat + 1) ∧ le16 frameE6 (32 + 7 * (0#16).toNat) = some 1#16 ∧
    frameE6[34 + 7 * (0#16).toNat]? = some 0xFE#8 ∧ le32 frameE6 (35 + 7 * (0#16).toNat) = some 0x41480000#32 ∧
    HoldsPayload (received frameR .done) 4 ∧ State.reset.rxst ≠ .done :=
  ⟨⟨rfl, 25#16, by decide, by decide⟩, by decide, by decide, by decide, rfl, rfl, by decide, by decide, by decide, rfl,
    by decide, ⟨rfl, 14#16, by decide, by decide⟩, by decide⟩

/-- ByteStreamReadsOnlyRawAndState: two states that agree on RAW and RXST and on little else; a successful RXDEC.byte_stream. -/
theorem witness_readsOnlyRaw : (∃ t t', exec .bscnt (received frameE6 .done) = .next t ∧
      exec .bscnt { received frameE6 .done with a := 0x12#8, pval := 7#32, ptag := .int } = .next t') ∧
    (∃ t u, exec (.rxdec true 5#4) (received frameE6 .done) = .next t ∧ Succeeded t ∧
      exec .bscnt (received frameE6 .done) = .next u) :=
  ⟨⟨_, _, rfl, rfl⟩, ⟨_, _, rfl, ⟨_, rfl⟩, rfl⟩⟩

/-- StepKeepsInvariant: a step that answers, from a state of the invariant. -/
theorem witness_step : Inv State.reset ∧ ∃ t, step (State.reset.present 0x3100000000AA#48) = .next t :=
  ⟨witness_invariant.1, _, rfl⟩

/-- FaultsArePrecise, CommandsRaiseOnlyListedFaults, FaultRecordIsSticky: a fault of each kind of the statement. -/
theorem witness_faults : (∃ t r, exec .bldwr State.reset = .next t ∧ t.rsp = some r ∧ r.status ≠ 0x00#8) ∧
    (∃ t r, exec (.rxb 0x00#8) (received (frameB1.take 10 ++ [0x09#8]) .hdr) = .next t ∧ t.rsp = some r ∧ r.status ≠ 0x00#8) ∧
    (∃ t r, exec (.miadd 16#8 0#16) State.reset = .next t ∧ t.rsp = some r ∧ r.status ≠ 0x00#8) :=
  ⟨⟨_, _, rfl, rfl, by decide⟩, ⟨_, _, rfl, rfl, by decide⟩, ⟨_, _, rfl, rfl, by decide⟩⟩

theorem witness_sticky : (∃ t, step (State.reset.present 0x220000000000#48) = .next t ∧ FaultedWith t 5) ∧
    (∃ t, step (State.present { State.reset with flt := 0x0020#16 } 0x000000000000#48) = .next t) ∧
    (0x0020#16).getLsbD 5 = true ∧
    (∀ rest, (State.present { State.reset with flt := 0x0020#16 } 0x000000000000#48).cmds ≠ 0x010000000000#48 :: rest) :=
  ⟨⟨_, rfl, rfl⟩, ⟨_, rfl⟩, by decide, fun rest h => absurd (List.cons.inj h).1 (by decide)⟩

/-- ReadCommandsHaveNoSideEffect. -/
theorem witness_readsOnly : readsOnly .csrd = true ∧ ∃ t, exec .csrd State.reset = .next t ∧ Succeeded t :=
  ⟨rfl, _, rfl, _, rfl⟩

/-- OnlyListedWritersChangeState, ReceivedBytesNeverChange: an appending RXB that succeeds, and a command in S_DONE. -/
theorem witness_writers : (∃ t, exec (.rxb 0x01#8) (received (frameB1.take 2) .hdr) = .next t ∧ Succeeded t) ∧ writesAcc (.rxb 0x01#8) = false ∧
    (∃ t, exec (.rxdec true 3#4) (received frameR .done) = .next t) ∧ (received frameR .done).rxst = .done :=
  ⟨⟨_, rfl, _, rfl⟩, rfl, ⟨_, rfl⟩, rfl⟩

/-- DecodeIgnoresChecksumsAndMarker: frame R, and R with its marker, flags, id and both checksums overwritten. -/
theorem witness_ignored : Inv (received frameR .done) ∧ HoldsPayload (received frameR .done) 4 ∧
    (let raw' := 0x55#8 :: 0x01#8 :: (frameR.take 12).drop 2 ++ [0#8, 0#8, 0x02#8, 0x07#8] ++ (frameR.take 28).drop 16 ++ [0#8, 0#8]
     raw'.length = frameR.length ∧
     (∀ k, k ≠ 0 → k ≠ 1 → k ≠ 12 → k ≠ 13 → k ≠ 15 → k < 24 + 4 → raw'[k]? = frameR[k]?) ∧
     ∃ t t', exec (.rxdec true 3#4) (received frameR .done) = .next t ∧
       exec (.rxdec true 3#4) (received raw' .done) = .next t') :=
  ⟨inv_received (by decide) (by decide), ⟨rfl, 14#16, by decide, by decide⟩, by decide,
    fun k h0 h1 h2 h3 h4 hk => by interval_cases k <;> first | rfl | contradiction, _, _, rfl, rfl⟩

/-- ByteReadersFollowWireOrder. -/
theorem witness_bytes : frameR[24]? = some 0x78#8 ∧ frameR[24 + 1]? = some 0x56#8 ∧ frameR[24 + 2]? = some 0x34#8 ∧
    frameR[24 + 3]? = some 0x92#8 := ⟨rfl, rfl, rfl, rfl⟩

/-- StoresLeaveEarlierBytes: one successful store of each kind, VENC at each of its widths. -/
theorem witness_stores : (∃ t, exec (.rxb 0xAA#8) State.reset = .next t ∧ ¬ FaultedWith t 5) ∧
    (∃ t, exec (.miadd 1#8 2#16) State.reset = .next t ∧ Succeeded t) ∧
    (∃ t, exec (.venc 0#4 1#32) State.reset = .next t ∧ Succeeded t) ∧
    (∃ t, exec (.venc 1#4 0xFFFFFFFE#32) State.reset = .next t ∧ Succeeded t) ∧
    (∃ t, exec (.venc 2#4 70000#32) State.reset = .next t ∧ Succeeded t) ∧
    (∃ t, exec .bldrd State.reset = .next t ∧ Succeeded t) ∧
    (∃ t, exec .bldwr (assembling [1#8] .value) = .next t ∧ Succeeded t) :=
  ⟨⟨_, rfl, fun h => absurd h (by unfold FaultedWith; decide)⟩, ⟨_, rfl, _, rfl⟩, ⟨_, rfl, _, rfl⟩, ⟨_, rfl, _, rfl⟩, ⟨_, rfl, _, rfl⟩,
    ⟨_, rfl, _, rfl⟩, ⟨_, rfl, _, rfl⟩⟩

end Sys2Proof.Tests
end

/-! The statements of 00_scope.md: a step runs the command its word decodes to (R5), and the byte readers give the numbers R9
defines. -/

namespace Sys2Proof.Proofs

open Sys2Proof Sys2Proof.Machine

/-! ### Byte readers as numbers -/

/-- A byte appended below shifts the rest up by one byte. -/
theorem toNat_append_byte {n : Nat} (x : BitVec n) (b : Byte) : (x ++ b).toNat = 256 * x.toNat + b.toNat := by
  rw [BitVec.toNat_append, ← Nat.shiftLeft_add_eq_or_of_lt b.isLt, Nat.shiftLeft_eq, Nat.mul_comm]

/-- Two bytes that are there read little-endian: the first is the low one. -/
theorem le16_toNat {f : Bytes} {k : Nat} {b0 b1 : Byte} (h0 : f[k]? = some b0) (h1 : f[k + 1]? = some b1) :
    ∃ v, le16 f k = some v ∧ v.toNat = b0.toNat + 256 * b1.toNat :=
  ⟨b1 ++ b0, le16_eq_some_iff.mpr ⟨b0, b1, h0, h1, rfl⟩, by rw [toNat_append_byte, Nat.add_comm]⟩

/-- Two bytes that are there read big-endian: the first is the high one. -/
theorem be16_toNat {f : Bytes} {k : Nat} {b0 b1 : Byte} (h0 : f[k]? = some b0) (h1 : f[k + 1]? = some b1) :
    ∃ v, be16 f k = some v ∧ v.toNat = 256 * b0.toNat + b1.toNat :=
  ⟨b0 ++ b1, be16_eq_some_iff.mpr ⟨b0, b1, h0, h1, rfl⟩, toNat_append_byte b0 b1⟩

/-- Four bytes that are there read little-endian: each is worth 256 times the one before it. -/
theorem le32_toNat {f : Bytes} {k : Nat} {b0 b1 b2 b3 : Byte} (h0 : f[k]? = some b0) (h1 : f[k + 1]? = some b1)
    (h2 : f[k + 2]? = some b2) (h3 : f[k + 3]? = some b3) :
    ∃ v, le32 f k = some v ∧
      v.toNat = b0.toNat + 256 * b1.toNat + 65536 * b2.toNat + 16777216 * b3.toNat := by
  refine ⟨b3 ++ b2 ++ b1 ++ b0, le32_eq_some_iff.mpr ⟨b0, b1, b2, b3, h0, h1, h2, h3, rfl⟩, ?_⟩
  simp only [toNat_append_byte]
  omega

/-! ### The obligations -/

/-- Settles O6: of the two branches of a step that consumes a word, the one of a word that decodes. -/
theorem stepRunsDecodedCommand : Obligations.StepRunsDecodedCommand := by
  intro s w rest i hcmds hdecode
  rw [step_cons hcmds, hdecode]

/-- Settles O59: each reader concatenates the bytes it finds, and a concatenation of bytes is their number in base 256. -/
theorem byteReadersFollowWireOrder : Obligations.ByteReadersFollowWireOrder :=
  ⟨fun _ _ _ _ h0 h1 => ⟨le16_toNat h0 h1, be16_toNat h0 h1⟩,
    fun _ _ _ _ _ _ h0 h1 h2 h3 => le32_toNat h0 h1 h2 h3⟩

end Sys2Proof.Proofs

/-! The statements of 10_state.md. What a command can do is said once (`exec_effect`): the groups of state it writes when it
succeeds (R13, column "written by") and the little it writes when it faults (R133). The invariant of R33 then needs one lemma per
group of state, and each claim about who writes what is a walk through these cases. -/

namespace Sys2Proof.Proofs

open Sys2Proof Sys2Proof.Machine

/-! ### What a command can do -/

/-- `Written s i u`: a successful `i` can turn `s` into `u`, the response aside. It tells as much of what is written as R13 and R33
speak of: any descriptor for SET, any bytes of a codec's width for VENC. -/
inductive Written (s : State) : Instr → State → Prop
  | nothing {i : Instr} (hi : readsOnly i = true) : Written s i s
  | reset : Written s .srst s.softReset
  | descriptor {reg : BitVec 8} {v : Word} (src dst oid : Word) (otype pid : Half) :
      Written s (.set reg v) { s with tsrc := src, tdst := dst, totype := otype, toid := oid, tpid := pid }
  | accStarted : Written s .csinit (s.setAcc accInit.1 accInit.2)
  | accAbsorbed {v : Byte} : Written s (.csadd v) (s.setAcc (absorb (accOf s) v).1 (absorb (accOf s) v).2)
  | payCleared : Written s .txclr (s.setPay [] .empty)
  | built {i : Instr} {sid a b : Byte} (hi : i = .bldrd ∧ sid = 0x01#8 ∨ i = .bldwr ∧ sid = 0x02#8)
      (hfits : s.txpay.length ≤ s.maxpay) :
      Written s i (((s.setAcc a b).setTx (frame sid s.tsrc s.tdst s.totype s.toid s.tpid s.txpay)).setPay [] .empty)
  | valueEncoded {fmt : BitVec 4} {v : Word} {bytes : Bytes} (c : Codec) (hwidth : bytes.length = c.width)
      (hfits : bytes.length ≤ s.maxpay) : Written s (.venc fmt v) (s.setPay bytes .value)
  | groupAppended {id : Byte} {ref : Half} (hkind : s.txpk = .empty ∨ s.txpk = .minfo)
      (hfits : (s.txpay ++ miGroup ref id).length ≤ s.maxpay) :
      Written s (.miadd id ref) (s.setPay (s.txpay ++ miGroup ref id) .minfo)
  | parserStarted : Written s .rxrst ((s.setRx [] .sof).setVal 0#32 .none)
  | byteReceived {v : Byte} {st : RxState} (hopen : s.rxst ≠ .done ∧ s.rxst ≠ .fault)
      (hst : nextState s.maxpay s.rxst s.raw.length (s.raw ++ [v]) = some st) :
      Written s (.rxb v) (s.setRx (s.raw ++ [v]) st)
  | valueDecoded {rd : Bool} {fmt : BitVec 4} {v : Word} {tag : ValTag} (hdone : s.rxst = .done)
      (hzero : tag = .none ∨ tag = .absent → v = 0#32) : Written s (.rxdec rd fmt) (s.setVal v tag)

/-- `WrittenByFault s i c u`: an `i` that faults with `c` turns `s` into `u`, FLT and the response aside. -/
inductive WrittenByFault (s : State) : Instr → FaultCode → State → Prop
  | nothing {i : Instr} {c : FaultCode} (hc : c.number ∈ possibleFaults i) : WrittenByFault s i c s
  | sizeRefused {v : Byte} (hopen : s.rxst ≠ .done ∧ s.rxst ≠ .fault)
      (hst : nextState s.maxpay s.rxst s.raw.length (s.raw ++ [v]) = some .fault) :
      WrittenByFault s (.rxb v) .len (s.setRx (s.raw ++ [v]) .fault)
  | aborted {id : Byte} {ref : Half} {c : FaultCode} (hc : c = .len ∨ c = .asm) :
      WrittenByFault s (.miadd id ref) c (s.setPay [] .abort)

/-- `Effect s i t`: `t` is a next state that `i` can answer with from `s`. -/
inductive Effect (s : State) (i : Instr) : State → Prop
  | success {u : State} {d : Word} (hu : Written s i u) : Effect s i (u.respond d)
  | fault {u : State} {c : FaultCode} (hu : WrittenByFault s i c u) : Effect s i (u.raise c)

/-- If the (rest of the) command `i` with result `r` answers, it does so as `Effect` allows. -/
def EffectOf (s : State) (i : Instr) (r : Result) : Prop := ∀ t, r = .next t → Effect s i t

/-! One rule per shared operation, from the law that says what the operation can do. -/

namespace EffectOf

variable {s : State} {i : Instr} {c : FaultCode}

theorem answer {u : State} {d : Word} (hu : Written s i u) : EffectOf s i (answer u d) := by
  rintro t ⟨⟩
  exact .success hu

theorem raise {u : State} (hu : WrittenByFault s i c u) : EffectOf s i (raiseFault u c) := by
  rintro t ⟨⟩
  exact .fault hu

theorem refuse (hc : c.number ∈ possibleFaults i := by simp [possibleFaults, FaultCode.number]) :
    EffectOf s i (raiseFault s c) :=
  raise (.nothing hc)

theorem require {p : Prop} [Decidable p] {k : Result} (hk : p → EffectOf s i k)
    (hc : c.number ∈ possibleFaults i := by simp [possibleFaults, FaultCode.number]) : EffectOf s i (require s p c k) := by
  intro t h
  obtain ⟨hp, h⟩ | ⟨-, rfl⟩ := require_next h
  · exact hk hp t h
  · exact .fault (.nothing hc)

theorem orFault {α : Type} {o : Option α} {f : Fault} {k : α → Result} (hk : ∀ v, o = some v → EffectOf s i (k v)) :
    EffectOf s i (orFault o f k) := by
  intro t h
  obtain ⟨v, hv, h⟩ := orFault_next h
  exact hk v hv t h

theorem orRaise {α : Type} {r : Except FaultCode α} {k : α → Result}
    (he : ∀ e, r = .error e → e.number ∈ possibleFaults i) (hk : ∀ v, r = .ok v → EffectOf s i (k v)) :
    EffectOf s i (orRaise s r k) := by
  intro t h
  obtain ⟨v, hv, h⟩ | ⟨e, hr, rfl⟩ := orRaise_next h
  · exact hk v hv t h
  · exact .fault (.nothing (he e hr))

theorem loadByte {buf : Bytes} {n : Half} (hi : readsOnly i = true)
    (hc : 7 ∈ possibleFaults i := by simp [possibleFaults]) : EffectOf s i (loadByte s buf n) := by
  intro t h
  obtain ⟨v, -, rfl⟩ | ⟨-, rfl⟩ := loadByte_next h
  · exact .success (.nothing hi)
  · exact .fault (.nothing hc)

theorem withContext {k : Result} (hfaults : possibleFaults i = [5, 7]) (hk : EffectOf s i k) :
    EffectOf s i (withContext s k) := by
  intro t h
  obtain h | rfl | rfl := withContext_next h
  · exact hk t h
  · exact .fault (.nothing (by simp [hfaults, FaultCode.number]))
  · exact .fault (.nothing (by simp [hfaults, FaultCode.number]))

theorem withRecord {n : Half} {k : Nat → Result} (hfaults : possibleFaults i = [5, 7])
    (hk : ∀ start, EffectOf s i (k start)) : EffectOf s i (withRecord s n k) := by
  intro t h
  obtain h | rfl | rfl := withRecord_next h
  · exact hk _ t h
  · exact .fault (.nothing (by simp [hfaults, FaultCode.number]))
  · exact .fault (.nothing (by simp [hfaults, FaultCode.number]))

end EffectOf

theorem execGet_effect (reg : BitVec 8) (s : State) : EffectOf s (.get reg) (execGet reg s) := by
  unfold execGet
  split
  · exact .refuse
  · exact .require fun _ => .orFault fun _ _ => .answer (.nothing rfl)

theorem execSet_effect (reg : BitVec 8) (v : Word) (s : State) : EffectOf s (.set reg v) (execSet reg v s) := by
  unfold execSet
  split
  · exact .answer (.descriptor ..)
  · exact .answer (.descriptor ..)
  · exact .require fun _ => .answer (.descriptor ..)
  · exact .answer (.descriptor ..)
  · exact .require fun _ => .answer (.descriptor ..)
  · exact .refuse

theorem build_effect {i : Instr} {sid : Byte} (s : State)
    (hi : i = .bldrd ∧ sid = 0x01#8 ∨ i = .bldwr ∧ sid = 0x02#8) : EffectOf s i (build sid s) := by
  intro t h
  obtain ⟨hfits, _, -, rfl⟩ := build_next h
  exact .success (.built hi hfits)

theorem execMiadd_effect (id : Byte) (ref : Half) (s : State) : EffectOf s (.miadd id ref) (execMiadd id ref s) := by
  refine .require fun hkind => ?_
  split
  · exact .raise (.aborted (.inl rfl))
  · rename_i pay hpay
    obtain ⟨-, rfl⟩ := memAppend_eq_some_iff.mp hpay
    split
    · exact .answer (.groupAppended hkind (memAppend_length_le hpay))
    · exact .raise (.aborted (.inr rfl))

theorem execVenc_effect (fmt : BitVec 4) (v : Word) (s : State) : EffectOf s (.venc fmt v) (execVenc fmt v s) := by
  unfold execVenc
  split
  · exact .refuse
  · rename_i c _
    refine .require fun _ => .orRaise (fun e he => ?_) fun bytes hb => .orFault fun pay hpay => ?_
    · simp [valueEncode_error he, possibleFaults, FaultCode.number]
    · obtain ⟨-, rfl⟩ := memAppend_eq_some_iff.mp hpay
      exact .answer (.valueEncoded c (valueEncode_length hb) (memAppend_length_le hpay))

theorem execVdec_effect (fmt : BitVec 4) (v : Word) (s : State) : EffectOf s (.vdec fmt v) (execVdec fmt v s) := by
  unfold execVdec
  split
  · exact .refuse
  · refine .require fun _ => .orFault fun r hr => .orRaise (fun e he => ?_) fun w _ => .answer (.nothing rfl)
    subst he
    simp [valueDecode_error hr, possibleFaults, FaultCode.number]

theorem execRxb_effect (v : Byte) (s : State) : EffectOf s (.rxb v) (execRxb v s) := by
  refine .require fun hopen => .orFault fun raw hraw => .orFault fun st hst => ?_
  obtain ⟨-, rfl⟩ := memAppend_eq_some_iff.mp hraw
  split
  · subst st
    exact .raise (.sizeRefused hopen hst)
  · exact .answer (.byteReceived hopen hst)

theorem execRxdec_effect (rd : Bool) (fmt : BitVec 4) (s : State) :
    EffectOf s (.rxdec rd fmt) (execRxdec rd fmt s) := by
  refine .require fun _ => .require fun hdone => .orFault fun sflags _ => ?_
  split
  · exact .refuse
  refine .orFault fun n _ => ?_
  split
  · exact .answer (.valueDecoded hdone fun _ => rfl)
  split
  · exact .answer (.valueDecoded hdone (by simp))
  · rename_i c _
    refine .require fun _ => .orFault fun bytes _ => .orFault fun r hr =>
      .orRaise (fun e he => ?_) fun w _ => .answer (.valueDecoded hdone (by cases c <;> simp [Codec.valTag]))
    subst he
    simp [valueDecode_error hr, possibleFaults, FaultCode.number]

theorem execRxerr_effect (s : State) : EffectOf s .rxerr (execRxerr s) :=
  .require fun _ => .orFault fun _ _ => .require fun _ => .orFault fun _ _ =>
    .require fun _ => .orFault fun _ _ => .answer (.nothing rfl)

theorem execBsref_effect (n : Half) (s : State) : EffectOf s (.bsref n) (execBsref n s) :=
  .withRecord rfl fun _ => .orFault fun _ _ => .answer (.nothing rfl)

theorem execBsagg_effect (n : Half) (s : State) : EffectOf s (.bsagg n) (execBsagg n s) :=
  .withRecord rfl fun _ => .orFault fun _ _ => .answer (.nothing rfl)

theorem execBsval_effect (n : Half) (s : State) : EffectOf s (.bsval n) (execBsval n s) :=
  .withRecord rfl fun _ => .orFault fun _ _ => .answer (.nothing rfl)

/-- What a command can do (R13, R46, R133, R137). -/
theorem exec_effect {i : Instr} {s t : State} (h : exec i s = .next t) : Effect s i t := by
  refine (?_ : EffectOf s i (exec i s)) t h
  cases i with
  | nop => exact .answer (.nothing rfl)
  | srst => exact .answer .reset
  | get reg => exact execGet_effect reg s
  | set reg v => exact execSet_effect reg v s
  | csinit => exact .answer .accStarted
  | csadd v => exact .answer .accAbsorbed
  | csrd => exact .answer (.nothing rfl)
  | txclr => exact .answer .payCleared
  | bldrd => exact .require fun _ => build_effect s (.inl ⟨rfl, rfl⟩)
  | bldwr => exact .require fun _ => build_effect s (.inr ⟨rfl, rfl⟩)
  | txraw n => exact .loadByte rfl
  | rxrst => exact .answer .parserStarted
  | rxb v => exact execRxb_effect v s
  | rxdec rd fmt => exact execRxdec_effect rd fmt s
  | rxerr => exact execRxerr_effect s
  | rxraw n => exact .loadByte rfl
  | venc fmt v => exact execVenc_effect fmt v s
  | vdec fmt v => exact execVdec_effect fmt v s
  | miadd id ref => exact execMiadd_effect id ref s
  | asmcls id => exact .answer (.nothing rfl)
  | bsflg => exact .withContext rfl (.orFault fun _ _ => .answer (.nothing rfl))
  | bstime => exact .withContext rfl (.orFault fun _ _ => .answer (.nothing rfl))
  | bscnt => exact .require fun _ => .orFault fun _ _ => .answer (.nothing rfl)
  | bsref n => exact execBsref_effect n s
  | bsagg n => exact execBsagg_effect n s
  | bsval n => exact execBsval_effect n s

/-! ### The word of SRST -/

theorem checked_eq_ok_iff {op : BitVec 8} {zeros : Bool} {i j : Instr} :
    checked op zeros i = .ok j ↔ zeros = true ∧ i = j := by
  cases zeros <;> simp [checked]

/-- What `r` decodes to, if anything, is a command of `w`'s opcode. -/
def OwnOpcode (w : CmdWord) (r : Except DecodeError Instr) : Prop := ∀ i, r = .ok i → opcode i = opField w

theorem OwnOpcode.row {w : CmdWord} {op : BitVec 8} {r r' : Except DecodeError Instr} (hr : op = opField w → OwnOpcode w r)
    (hr' : OwnOpcode w r') : OwnOpcode w (if opField w = op then r else r') := by
  split
  · exact hr (Eq.symm ‹_›)
  · exact hr'

theorem OwnOpcode.checked {w : CmdWord} {op : BitVec 8} {zeros : Bool} {i : Instr} (hi : opcode i = opField w) :
    OwnOpcode w (checked op zeros i) := by
  intro j h
  obtain ⟨-, rfl⟩ := checked_eq_ok_iff.mp h
  exact hi

theorem OwnOpcode.formatRI {w : CmdWord} {f : BitVec 8 → Word → Instr}
    (hi : opcode (f (subField w) (immField w)) = opField w) : OwnOpcode w (formatRI w f) :=
  OwnOpcode.checked (zeros := true) (op := 0#8) hi

/-- A word decodes to a command of its own opcode (R54): row by row of the opcode map. -/
theorem opcode_of_decode {w : CmdWord} {i : Instr} (h : decode w = .ok i) : opcode i = opField w := by
  refine (?_ : OwnOpcode w (decode w)) i h
  unfold decode
  iterate 3 refine .row (fun hop => .checked hop) ?_
  refine .row (fun hop => .formatRI hop) ?_
  iterate 22 refine .row (fun hop => .checked hop) ?_
  rintro j ⟨⟩

/-- SRST has one word only: its format has no operand (R57, R58). -/
theorem eq_of_decode_srst {w : CmdWord} (h : decode w = .ok .srst) : w = 0x010000000000#48 := by
  have hop : opField w = 0x01#8 := (opcode_of_decode h).symm
  have hz : formatZ w .srst = .ok .srst := by rw [← h]; simp [decode, hop]
  obtain ⟨hzero, -⟩ := checked_eq_ok_iff.mp hz
  rw [Bool.and_eq_true, beq_iff_eq, beq_iff_eq] at hzero
  obtain ⟨hsub, himm⟩ := hzero
  rw [← cmdWord_fields w, hop, hsub, himm]
  rfl

/-! ### The fault record -/

/-- The bit of a fault code is the one at its number (R29, R134). -/
theorem bit_getLsbD (c : FaultCode) (k : Nat) : c.bit.getLsbD k = decide (c.number = k) := by
  have hbit : c.bit = BitVec.twoPow 16 c.number := by cases c <;> rfl
  have hlt : c.number < 16 := by have := fault_number_range c; omega
  rw [hbit, BitVec.getLsbD_twoPow, decide_eq_true hlt, Bool.true_and]

theorem faultedWith_raise_iff {s : State} {c : FaultCode} {k : Nat} (hk : k ≤ 9) :
    FaultedWith (s.raise c) k ↔ c.number = k := by
  have := fault_number_range c
  simp only [FaultedWith, State.raise_rsp, FaultCode.status, Option.some.injEq, Response.mk.injEq, and_true,
    ← BitVec.toNat_inj, BitVec.toNat_ofNat]
  omega

theorem not_faultedWith_respond {s : State} {d : Word} {k : Nat} (h1 : 1 ≤ k) (h9 : k ≤ 9) :
    ¬ FaultedWith (s.respond d) k := by
  simp only [FaultedWith, State.respond_rsp, Option.some.injEq, Response.mk.injEq, ← BitVec.toNat_inj,
    BitVec.toNat_ofNat]
  omega

/-- A fault sets its own bit of FLT (R29). -/
theorem flt_of_faultedWith_raise {s : State} {c : FaultCode} {k : Nat} (hk : k ≤ 9) (h : FaultedWith (s.raise c) k) :
    (s.raise c).flt.getLsbD k = true := by
  rw [State.raise_flt, BitVec.getLsbD_or, bit_getLsbD, decide_eq_true ((faultedWith_raise_iff hk).mp h), Bool.or_true]

/-- A fault clears no bit of FLT. -/
theorem flt_raise_of_flt {s : State} (c : FaultCode) {k : Nat} (h : s.flt.getLsbD k = true) :
    (s.raise c).flt.getLsbD k = true := by
  rw [State.raise_flt, BitVec.getLsbD_or, h, Bool.true_or]

section
variable {s u : State} {i : Instr} {c : FaultCode}

/-- R29: FLT is written by faults and SRST only. -/
theorem Written.flt (h : Written s i u) (hi : i ≠ .srst) : u.flt = s.flt := by
  cases h with
  | reset => contradiction
  | _ => rfl

theorem WrittenByFault.flt (h : WrittenByFault s i c u) : u.flt = s.flt := by
  cases h <;> rfl

end

theorem Effect.flt_of_faultedWith {s t : State} {i : Instr} {k : Nat} (h : Effect s i t) (h1 : 1 ≤ k) (h9 : k ≤ 9)
    (hf : FaultedWith t k) : t.flt.getLsbD k = true := by
  cases h with
  | success => exact absurd hf (not_faultedWith_respond h1 h9)
  | fault => exact flt_of_faultedWith_raise h9 hf

theorem Effect.flt_mono {s t : State} {i : Instr} {k : Nat} (h : Effect s i t) (hi : i ≠ .srst)
    (hk : s.flt.getLsbD k = true) : t.flt.getLsbD k = true := by
  cases h with
  | success hu => rwa [State.respond_flt, hu.flt hi]
  | fault hu => exact flt_raise_of_flt _ (by rwa [hu.flt])

/-! ### The invariant of R33, one group of state at a time -/

section
variable {s : State} (h : Inv s)
include h

theorem inv_consume (rest : List CmdWord) : Inv { s with cmds := rest } := { h with }

theorem inv_respond (d : Word) : Inv (s.respond d) := { h with }

/-- Item 6: a fault code is none of the reserved bits of FLT. -/
theorem inv_raise (c : FaultCode) : Inv (s.raise c) := by
  have hc := fault_number_range c
  refine { h with fltLow := ?_, fltHigh := fun k hk => ?_ }
  · rw [State.raise_flt, BitVec.getLsbD_or, h.fltLow, bit_getLsbD, decide_eq_false (by omega), Bool.or_false]
  · rw [State.raise_flt, BitVec.getLsbD_or, h.fltHigh k hk, bit_getLsbD, decide_eq_false (by omega), Bool.or_false]

theorem inv_setAcc (a b : Byte) : Inv (s.setAcc a b) := { h with }

theorem inv_setDescriptor (src dst oid : Word) (otype pid : Half) :
    Inv { s with tsrc := src, tdst := dst, totype := otype, toid := oid, tpid := pid } := { h with }

theorem inv_setPay {pay : Bytes} {kind : PayKind} (hfits : pay.length ≤ s.maxpay) (hkind : kindAllows kind pay.length) :
    Inv (s.setPay pay kind) :=
  { h with lengths := ⟨hfits, h.lengths.2⟩, kind := hkind }

/-- Item 3: what a build writes is a request whose data size is right. -/
theorem inv_setTx_frame {sid : Byte} {src dst oid : Word} {otype pid : Half} {pay : Bytes}
    (hsid : sid = 0x01#8 ∨ sid = 0x02#8) (hfits : pay.length ≤ s.maxpay) :
    Inv (s.setTx (frame sid src dst otype oid pid pay)) := by
  obtain ⟨hpay, -, hraw⟩ := h.lengths
  have hmax := h.config
  have hlen := frame_length sid src dst otype oid pid pay
  refine { h with
    lengths := ⟨hpay, by rw [State.setTx_txbuf, hlen, State.setTx_maxpay]; omega, hraw⟩
    built := .inr ⟨⟨sid, src, dst, otype, oid, pid, pay, hsid, hfits, rfl⟩, _, frame_dataSize .., ?_⟩ }
  rw [State.setTx_txbuf, hlen, BitVec.toNat_ofNat]
  omega

/-- Items 1, 4 and 5 for bytes received: before S_DONE no value is decoded. -/
theorem inv_receive {v : Byte} {st : RxState} (hopen : s.rxst ≠ .done ∧ s.rxst ≠ .fault)
    (hst : nextState s.maxpay s.rxst s.raw.length (s.raw ++ [v]) = some st) : Inv (s.setRx (s.raw ++ [v]) st) := by
  obtain ⟨hpay, hbuf, -⟩ := h.lengths
  obtain ⟨hdone, hfault⟩ := hopen
  obtain ⟨st', hst', hparser, hfits⟩ := nextState_parserState (v := v) h.parser hdone hfault
  obtain rfl : st = st' := Option.some.inj (hst.symm.trans hst')
  exact { h with
    lengths := ⟨hpay, hbuf, hfits⟩
    parser := hparser
    valueFrame := fun htag => absurd (h.valueFrame htag) hdone }

theorem inv_startParser : Inv ((s.setRx [] .sof).setVal 0#32 .none) :=
  have ⟨hpay, hbuf, _⟩ := h.lengths
  { h with
    lengths := ⟨hpay, hbuf, Nat.zero_le _⟩
    parser := rfl
    valueZero := fun _ => rfl
    valueFrame := fun htag => absurd rfl htag }

/-- Item 5: a value is decoded in S_DONE only. -/
theorem inv_setVal {v : Word} {tag : ValTag} (hdone : s.rxst = .done) (hzero : tag = .none ∨ tag = .absent → v = 0#32) :
    Inv (s.setVal v tag) :=
  { h with valueZero := hzero, valueFrame := fun _ => hdone }

end

/-- The reset table of R34 satisfies every item, whatever the legal parameter. -/
theorem inv_softReset {s : State} (h : 8 ≤ s.maxpay ∧ s.maxpay ≤ 32757) : Inv s.softReset where
  config := h
  lengths := ⟨Nat.zero_le _, Nat.zero_le _, Nat.zero_le _⟩
  kind := rfl
  built := .inl rfl
  parser := rfl
  valueZero := fun _ => rfl
  valueFrame := fun htag => absurd rfl htag
  fltLow := BitVec.getLsbD_zero
  fltHigh := fun _ _ => BitVec.getLsbD_zero

/-- A value has one of the three widths of item 2. -/
theorem kindAllows_value (c : Codec) : kindAllows .value c.width := by
  cases c <;> simp [kindAllows, Codec.width]

/-- One group more keeps item 2. -/
theorem kindAllows_group {s : State} (h : Inv s) (hkind : s.txpk = .empty ∨ s.txpk = .minfo) (ref : Half) (id : Byte) :
    kindAllows .minfo (s.txpay ++ miGroup ref id).length := by
  have hlen : (s.txpay ++ miGroup ref id).length = s.txpay.length + 3 := by simp [miGroup]
  have hold : s.txpay.length % 3 = 0 := by
    have hlengths := h.kind
    obtain hk | hk := hkind <;> simp only [hk, kindAllows] at hlengths <;> omega
  rw [hlen]
  exact ⟨by omega, by omega⟩

theorem Written.inv {s u : State} {i : Instr} (hu : Written s i u) (h : Inv s) : Inv u := by
  cases hu with
  | nothing => exact h
  | reset => exact inv_softReset h.config
  | descriptor => exact inv_setDescriptor h ..
  | accStarted => exact inv_setAcc h ..
  | accAbsorbed => exact inv_setAcc h ..
  | payCleared => exact inv_setPay h (Nat.zero_le _) rfl
  | @built _ _ a b hi hfits =>
    have hsid := hi.imp And.right And.right
    exact inv_setPay (inv_setTx_frame (inv_setAcc h a b) hsid hfits) (Nat.zero_le _) rfl
  | valueEncoded c hwidth hfits => exact inv_setPay h hfits (hwidth ▸ kindAllows_value c)
  | groupAppended hkind hfits => exact inv_setPay h hfits (kindAllows_group h hkind ..)
  | parserStarted => exact inv_startParser h
  | byteReceived hopen hst => exact inv_receive h hopen hst
  | valueDecoded hdone hzero => exact inv_setVal h hdone hzero

theorem WrittenByFault.inv {s u : State} {i : Instr} {c : FaultCode} (hu : WrittenByFault s i c u) (h : Inv s) : Inv u := by
  cases hu with
  | nothing => exact h
  | sizeRefused hopen hst => exact inv_receive h hopen hst
  | aborted => exact inv_setPay h (Nat.zero_le _) rfl

theorem exec_inv {s t : State} {i : Instr} (hexec : exec i s = .next t) (h : Inv s) : Inv t := by
  cases exec_effect hexec with
  | success hu => exact inv_respond (hu.inv h) _
  | fault hu => exact inv_raise (hu.inv h) _

/-! ### RXFLG -/

/-- Five flags as a number: each is worth its power of two. -/
theorem zext_flags (b0 b1 b2 b3 b4 : Bool) :
    zext (BitVec.ofBool b4 ++ BitVec.ofBool b3 ++ BitVec.ofBool b2 ++ BitVec.ofBool b1 ++ BitVec.ofBool b0) =
      BitVec.ofNat 32 ((if b0 = true then 1 else 0) + (if b1 = true then 2 else 0) + (if b2 = true then 4 else 0) +
        (if b3 = true then 8 else 0) + (if b4 = true then 16 else 0)) := by
  revert b0 b1 b2 b3 b4
  decide

theorem length_of_be16 {f : Bytes} {k : Nat} {v : Half} (h : be16 f k = some v) : k + 2 ≤ f.length := by
  obtain ⟨_, _, -, h1, -⟩ := be16_eq_some_iff.mp h
  have := (List.getElem?_eq_some_iff.mp h1).1
  omega

/-- RXFLG of a whole frame: the data checksum is there, so both checked sections are. -/
theorem rxFlags_eq_some {raw : Bytes} {n : Nat} {sofb sflags : Byte} {hck dck : Half} (hn : payloadLength raw = some n)
    (h0 : raw[0]? = some sofb) (h14 : raw[14]? = some sflags) (hhck : be16 raw 12 = some hck)
    (hdck : be16 raw (24 + n) = some dck) :
    rxFlags raw = some (BitVec.ofBool (flagIsErr sflags) ++ BitVec.ofBool (flagIsRsp sflags) ++
      BitVec.ofBool (dck == checksum ((raw.drop 14).take (10 + n))) ++
      BitVec.ofBool (hck == checksum ((raw.drop 1).take 11)) ++ BitVec.ofBool (sofb == Config.sof)) := by
  have hlen := length_of_be16 hdck
  simp only [rxFlags, flagSofOk, flagHckOk, flagDckOk, h0, h14, hhck, hn, hdck,
    memRead_of_le (buf := raw) (addr := 1) (n := 11) (by omega),
    memRead_of_le (buf := raw) (addr := 14) (n := 10 + n) (by omega)]

theorem execGet_rxflg {s : State} {flags : BitVec 5} (hdone : s.rxst = .done) (h : rxFlags s.raw = some flags) :
    exec (.get 0x2F#8) s = .next (s.respond (zext flags)) := by
  have hreg : Reg.ofNumber 0x2F#8 = some .rxflg := by decide
  simp only [exec, execGet, hreg, require_of (c := _ ∨ _) (.inr hdone), readReg, frameField, h,
    Option.map_some, orFault_some, answer_eq]

/-! ### Received bytes -/

/-- Appending to RAW before S_DONE keeps every byte at its address. -/
theorem append_keeps_received {s : State} (hdone : s.rxst ≠ .done) (bytes : Bytes) :
    (∀ k, k < s.raw.length → (s.raw ++ bytes)[k]? = s.raw[k]?) ∧ (s.rxst = .done → s.raw ++ bytes = s.raw) :=
  ⟨fun _ hk => List.getElem?_append_left hk, fun h => absurd h hdone⟩

/-! ### The obligations -/

/-- Settles O50: a step idles, refuses its word, or runs a command, whose effect keeps every item. -/
theorem stepKeepsInvariant : Obligations.StepKeepsInvariant := by
  intro s t h hstep
  obtain ⟨-, rfl⟩ | ⟨w, rest, i, -, -, hexec⟩ | ⟨w, rest, e, -, -, rfl⟩ := step_next hstep
  · exact h
  · exact exec_inv hexec (inv_consume h rest)
  · exact inv_raise (inv_consume h rest) .ill

/-- Settles O13: each of the five flags of R25 is worth its power of two in the register. -/
theorem getReadsFrameFlags : Obligations.GetReadsFrameFlags := by
  intro s n sofb sflags hck dck _ hpay h0 h14 hhck hdck
  obtain ⟨hdone, hn⟩ := holdsPayload_iff.mp hpay
  rw [execGet_rxflg hdone (rxFlags_eq_some hn h0 h14 hhck hdck), zext_flags]
  simp only [beq_iff_eq, flagIsRsp, flagIsErr, Bool.or_eq_true, Config.sof, respond_eq_answered]

/-- Settles O54: a fault sets its bit and no other command but SRST writes FLT; SRST has only the one word. -/
theorem faultRecordIsSticky : Obligations.FaultRecordIsSticky := by
  constructor
  · intro s t w rest c hcmds hstep h1 h9 hf
    obtain ⟨hnil, -⟩ | ⟨_, _, i, -, -, hexec⟩ | ⟨_, _, e, -, -, rfl⟩ := step_next hstep
    · cases hcmds.symm.trans hnil
    · exact (exec_effect hexec).flt_of_faultedWith h1 h9 hf
    · exact flt_of_faultedWith_raise h9 hf
  · intro s t k hword hstep hk
    obtain ⟨-, rfl⟩ | ⟨w, rest, i, hcmds, hdecode, hexec⟩ | ⟨w, rest, e, -, -, rfl⟩ := step_next hstep
    · exact hk
    · refine (exec_effect hexec).flt_mono ?_ hk
      rintro rfl
      exact hword rest (eq_of_decode_srst hdecode ▸ hcmds)
    · exact flt_raise_of_flt .ill hk

/-- Settles O56: the case of a command in `Written` or `WrittenByFault` names the groups of state it writes. -/
theorem onlyListedWritersChangeState : Obligations.OnlyListedWritersChangeState := by
  intro s t i hexec hsrst
  cases exec_effect hexec with
  | success hu =>
    cases hu with
    | reset => contradiction
    | nothing => simp
    | built hi =>
      obtain ⟨rfl, -⟩ | ⟨rfl, -⟩ := hi <;> simp [writesAcc]
    | _ => simp [writesAcc]
  | fault hu =>
    cases hu <;> simp [raise_not_succeeded]

/-- Settles O57: RXB, failing or not, is the only other writer of RAW; it appends, and not in S_DONE. -/
theorem receivedBytesNeverChange : Obligations.ReceivedBytesNeverChange := by
  intro s t i hexec hrxrst hsrst
  cases exec_effect hexec with
  | success hu =>
    cases hu with
    | reset => contradiction
    | parserStarted => contradiction
    | byteReceived hopen => exact append_keeps_received hopen.1 [_]
    | _ => exact ⟨fun _ _ => rfl, fun _ => rfl⟩
  | fault hu =>
    cases hu with
    | sizeRefused hopen => exact append_keeps_received hopen.1 [_]
    | _ => exact ⟨fun _ _ => rfl, fun _ => rfl⟩

/-- Settles O10: SRST keeps the parameter and the host's words of its state, the rest is the reset state by definition. -/
theorem resetLeavesTheTable : Obligations.ResetLeavesTheTable :=
  ⟨⟨rfl, rfl, rfl, rfl, rfl, rfl, rfl, rfl, rfl, rfl, rfl, rfl, rfl, rfl, rfl⟩, fun _ => rfl⟩

/-- Settles O49: the reset state is a soft reset of itself. -/
theorem resetSatisfiesInvariant : Obligations.ResetSatisfiesInvariant :=
  inv_softReset (s := State.reset) (by decide)

end Sys2Proof.Proofs

/-! The statement of 20_memory.md. A reading command that succeeds writes the response only (`Written.eq_of_readsOnly`), and no
command reads the response (`exec_ignores_rsp`): so the same command once more answers the same. -/

namespace Sys2Proof.Proofs

open Sys2Proof Sys2Proof.Machine

/-- No command reads the response of the last one (log entry 3): every path of every command that answers ends in `State.respond`
or `State.raise`, which overwrite it, and no check and no operand on the way looks at it. -/
theorem exec_ignores_rsp (i : Instr) (s : State) (r : Option Response) : exec i { s with rsp := r } = exec i s := by
  cases i <;> rfl

/-- The commands of R46, and NOP, have no case in `Written` but `nothing`. -/
theorem Written.eq_of_readsOnly {s u : State} {i : Instr} (hu : Written s i u) (hi : readsOnly i = true) : u = s := by
  cases hu with
  | nothing => rfl
  | built hbuild => obtain ⟨rfl, -⟩ | ⟨rfl, -⟩ := hbuild <;> contradiction
  | _ => contradiction

/-- Settles O55: a success of a reading command is `s` with a response, which the command does not read when it is repeated. -/
theorem readCommandsHaveNoSideEffect : Obligations.ReadCommandsHaveNoSideEffect := by
  intro s t i hi hexec hsucceeded
  cases exec_effect hexec with
  | fault => exact absurd hsucceeded (raise_not_succeeded _ _)
  | success hu =>
    obtain rfl := hu.eq_of_readsOnly hi
    exact ⟨rfl, (exec_ignores_rsp i _ _).trans hexec⟩

end Sys2Proof.Proofs

/-! The statements of 30_encoding.md. What the decoder does is said once (`decode_eq_ok_iff`): a word with a row's opcode decodes
exactly when the row's format (R57) allows the other two fields, and then to the command those fields give. Reading back, writing
back, the opcode map (match and mask say the same condition) and the illegal words (R64) follow from it. The frame of R65 is read
field by field, each reader undoing the writer whose bytes stand at its offset. -/

namespace Sys2Proof.Proofs

open Sys2Proof Sys2Proof.Machine

/-! ### Bits that must be 0 -/

section
variable {m n : Nat} {x : BitVec (m + n)}

theorem high_eq_zero_iff : x.extractLsb' n m = 0#m ↔ x.toNat < 2 ^ n := by
  have hq : x.toNat / 2 ^ n < 2 ^ m := Nat.div_lt_of_lt_mul (x.isLt.trans_eq (by rw [Nat.pow_add, Nat.mul_comm]))
  rw [← BitVec.toNat_inj, BitVec.extractLsb'_toNat, Nat.shiftRight_eq_div_pow, Nat.mod_eq_of_lt hq, BitVec.toNat_ofNat,
    Nat.zero_mod, Nat.div_eq_zero_iff_lt (Nat.two_pow_pos n)]

theorem high_append_low : x.extractLsb' n m ++ x.extractLsb' 0 n = x := by
  rw [BitVec.extractLsb'_append_extractLsb'_eq_extractLsb' (Nat.zero_add n).symm, BitVec.extractLsb'_eq_self]

/-- A field whose high bits are 0 is its low bits under as many zeros. -/
theorem zero_append_low (h : x.toNat < 2 ^ n) : 0#m ++ x.extractLsb' 0 n = x := by
  rw [← high_eq_zero_iff.mpr h, high_append_low]

/-- The bits a mask keeps are 0 exactly when the high bits are. -/
theorem and_highOnes_eq_zero_iff : x &&& (BitVec.allOnes m ++ 0#n) = 0#(m + n) ↔ x.toNat < 2 ^ n := by
  rw [← high_eq_zero_iff, ← BitVec.append_left_inj (0#n) (s₂ := 0#m), BitVec.zero_append_zero]
  conv_lhs => rw [← high_append_low (x := x), BitVec.and_append, BitVec.and_allOnes, BitVec.and_zero]

end

theorem zero_append_lt {m n : Nat} (v : BitVec n) : (0#m ++ v).toNat < 2 ^ n := by
  rw [BitVec.toNat_append, BitVec.toNat_ofNat, Nat.zero_mod, Nat.zero_shiftLeft, Nat.zero_or]
  exact v.isLt

/-! ### Formats -/

/-- The formats of R57. -/
inductive WordFormat where
  | z | i8 | i16 | r | ri | f | fi | m

/-- What a format lets `sub` and `imm` be (R57, R58). -/
def WordFormat.Allows : WordFormat → BitVec 8 → Word → Prop
  | .z => AllowedZ
  | .i8 => AllowedI8
  | .i16 => AllowedI16
  | .r => fun _ imm => imm = 0#32
  | .ri => fun _ _ => True
  | .f => AllowedF
  | .fi => AllowedFI
  | .m => AllowedM

/-- The format of a command (R62, column "format"). -/
def formatOf : Instr → WordFormat
  | .nop | .srst | .csinit | .csrd | .txclr | .bldrd | .bldwr | .rxrst | .rxerr | .bsflg | .bstime | .bscnt => .z
  | .csadd _ | .rxb _ | .asmcls _ => .i8
  | .txraw _ | .rxraw _ | .bsref _ | .bsagg _ | .bsval _ => .i16
  | .get _ => .r
  | .set _ _ => .ri
  | .rxdec _ _ => .f
  | .venc _ _ | .vdec _ _ => .fi
  | .miadd _ _ => .m

/-- The command of the same mnemonic with the operands these fields give (R55 to R57). -/
def withOperands (i : Instr) (sub : BitVec 8) (imm : Word) : Instr :=
  match i with
  | .get _ => .get sub
  | .set _ _ => .set sub imm
  | .csadd _ => .csadd (imm.extractLsb' 0 8)
  | .rxb _ => .rxb (imm.extractLsb' 0 8)
  | .asmcls _ => .asmcls (imm.extractLsb' 0 8)
  | .txraw _ => .txraw (imm.extractLsb' 0 16)
  | .rxraw _ => .rxraw (imm.extractLsb' 0 16)
  | .bsref _ => .bsref (imm.extractLsb' 0 16)
  | .bsagg _ => .bsagg (imm.extractLsb' 0 16)
  | .bsval _ => .bsval (imm.extractLsb' 0 16)
  | .rxdec _ _ => .rxdec (sub.getLsbD 4) (sub.extractLsb' 0 4)
  | .venc _ _ => .venc (sub.extractLsb' 0 4) imm
  | .vdec _ _ => .vdec (sub.extractLsb' 0 4) imm
  | .miadd _ _ => .miadd (imm.extractLsb' 16 8) (imm.extractLsb' 0 16)
  | .nop | .srst | .csinit | .csrd | .txclr | .bldrd | .bldwr | .rxrst | .rxerr | .bsflg | .bstime | .bscnt => i

theorem mnemonic_withOperands (i : Instr) (sub : BitVec 8) (imm : Word) : mnemonic (withOperands i sub imm) = mnemonic i := by
  cases i <;> rfl

section
variable {w : CmdWord} {i j : Instr}

theorem formatZ_eq_ok_iff : formatZ w i = .ok j ↔ AllowedZ (subField w) (immField w) ∧ i = j := by
  rw [formatZ, checked_eq_ok_iff, Bool.and_eq_true, beq_iff_eq, beq_iff_eq]
  rfl

theorem formatI8_eq_ok_iff {f : Byte → Instr} :
    formatI8 w f = .ok j ↔ AllowedI8 (subField w) (immField w) ∧ f ((immField w).extractLsb' 0 8) = j := by
  rw [formatI8, checked_eq_ok_iff, Bool.and_eq_true, beq_iff_eq, beq_iff_eq]
  exact and_congr_left' (and_congr_right' (high_eq_zero_iff (m := 24)))

theorem formatI16_eq_ok_iff {f : Half → Instr} :
    formatI16 w f = .ok j ↔ AllowedI16 (subField w) (immField w) ∧ f ((immField w).extractLsb' 0 16) = j := by
  rw [formatI16, checked_eq_ok_iff, Bool.and_eq_true, beq_iff_eq, beq_iff_eq]
  exact and_congr_left' (and_congr_right' (high_eq_zero_iff (m := 16)))

theorem formatR_eq_ok_iff {f : BitVec 8 → Instr} : formatR w f = .ok j ↔ immField w = 0#32 ∧ f (subField w) = j := by
  rw [formatR, checked_eq_ok_iff, beq_iff_eq]
  rfl

theorem formatRI_eq_ok_iff {f : BitVec 8 → Word → Instr} :
    formatRI w f = .ok j ↔ True ∧ f (subField w) (immField w) = j := by
  rw [formatRI, Except.ok.injEq, true_and]

theorem formatF_eq_ok_iff {f : Bool → BitVec 4 → Instr} :
    formatF w f = .ok j ↔
      AllowedF (subField w) (immField w) ∧ f ((subField w).getLsbD 4) ((subField w).extractLsb' 0 4) = j := by
  rw [formatF, checked_eq_ok_iff, Bool.and_eq_true, beq_iff_eq, beq_iff_eq]
  exact and_congr_left' (and_congr_left' (high_eq_zero_iff (m := 3)))

theorem formatFI_eq_ok_iff {f : BitVec 4 → Word → Instr} :
    formatFI w f = .ok j ↔ AllowedFI (subField w) (immField w) ∧ f ((subField w).extractLsb' 0 4) (immField w) = j := by
  rw [formatFI, checked_eq_ok_iff, beq_iff_eq]
  exact and_congr_left' (high_eq_zero_iff (m := 4))

theorem formatM_eq_ok_iff {f : Byte → Half → Instr} :
    formatM w f = .ok j ↔
      AllowedM (subField w) (immField w) ∧ f ((immField w).extractLsb' 16 8) ((immField w).extractLsb' 0 16) = j := by
  rw [formatM, checked_eq_ok_iff, Bool.and_eq_true, beq_iff_eq, beq_iff_eq]
  exact and_congr_left' (and_congr_right' (high_eq_zero_iff (m := 8)))

/-- The row of `i` in the decoder: its format allows the word's other fields, and they give the operands. -/
theorem decode_eq_ok_iff (hop : opField w = opcode i) :
    decode w = .ok j ↔
      (formatOf i).Allows (subField w) (immField w) ∧ withOperands i (subField w) (immField w) = j := by
  cases i <;> simp only [opcode] at hop <;> simp only [decode, hop, BitVec.reduceEq, if_true, if_false]
  case get => exact formatR_eq_ok_iff
  case set => exact formatRI_eq_ok_iff
  case csadd | rxb | asmcls => exact formatI8_eq_ok_iff
  case txraw | rxraw | bsref | bsagg | bsval => exact formatI16_eq_ok_iff
  case rxdec => exact formatF_eq_ok_iff
  case venc | vdec => exact formatFI_eq_ok_iff
  case miadd => exact formatM_eq_ok_iff
  all_goals exact formatZ_eq_ok_iff

end

/-! ### The encoder -/

theorem encode_eq_iff {w : CmdWord} {i : Instr} :
    encode i = w ↔ opcode i = opField w ∧ subOf i = subField w ∧ immOf i = immField w := by
  constructor
  · rintro rfl
    obtain ⟨hop, hsub, himm⟩ := Laws.EncodeFields.of_any i
    exact ⟨hop.symm, hsub.symm, himm.symm⟩
  · rintro ⟨hop, hsub, himm⟩
    rw [encode, hop, hsub, himm, cmdWord_fields]

/-- Every command stays within its format, whatever its operands. -/
theorem allows_own_fields (i : Instr) : (formatOf i).Allows (subOf i) (immOf i) := by
  cases i with
  | get | set => trivial
  | csadd v | rxb v | asmcls v => exact ⟨rfl, zero_append_lt (m := 24) v⟩
  | txraw n | rxraw n | bsref n | bsagg n | bsval n => exact ⟨rfl, zero_append_lt (m := 16) n⟩
  | rxdec rd fmt => exact ⟨by revert rd fmt; decide, rfl⟩
  | venc fmt | vdec fmt => exact zero_append_lt (m := 4) fmt
  | miadd id ref =>
    refine ⟨rfl, ?_⟩
    rw [immOf, BitVec.append_assoc]
    exact zero_append_lt (m := 8) (id ++ ref)
  | _ => exact ⟨rfl, rfl⟩

/-- The operands are the ones the fields were made of. -/
theorem withOperands_own_fields (i : Instr) : withOperands i (subOf i) (immOf i) = i := by
  cases i with
  | csadd v | rxb v | asmcls v => rw [withOperands, immOf, (byte_operand v).2]
  | txraw n | rxraw n | bsref n | bsagg n | bsval n => rw [withOperands, immOf, (index_operand n).2]
  | rxdec rd fmt => revert rd fmt; decide
  | venc fmt value | vdec fmt value => rw [withOperands, subOf, (tag_operand fmt).2, immOf]
  | miadd id ref =>
    rw [withOperands, immOf, BitVec.extractLsb'_append_eq_of_le (Nat.le_refl 16), BitVec.extractLsb'_append_eq_right,
      BitVec.extractLsb'_append_eq_right]
  | _ => rfl

/-- The tag and `rd` under three zeros are `sub`. -/
theorem sub_of_rxdec {sub : BitVec 8} (h : sub.toNat < 32) :
    0#3 ++ BitVec.ofBool (sub.getLsbD 4) ++ sub.extractLsb' 0 4 = sub := by
  revert sub
  decide

/-- The id and the reference under eight zeros are `imm`. -/
theorem imm_of_miadd {imm : Word} (h : imm.toNat < 2 ^ 24) :
    0#8 ++ imm.extractLsb' 16 8 ++ imm.extractLsb' 0 16 = imm := by
  rw [← (high_eq_zero_iff (m := 8) (n := 24)).mpr h,
    BitVec.extractLsb'_append_extractLsb'_eq_extractLsb' (start₁ := 16) (len₁ := 8) rfl]
  exact high_append_low (m := 16) (n := 16)

/-- Fields that a format allows hold nothing but operands. -/
theorem fields_of_allows {i : Instr} {sub : BitVec 8} {imm : Word} (h : (formatOf i).Allows sub imm) :
    subOf (withOperands i sub imm) = sub ∧ immOf (withOperands i sub imm) = imm := by
  cases i with
  | get => exact ⟨rfl, h.symm⟩
  | set => exact ⟨rfl, rfl⟩
  | csadd | rxb | asmcls => exact ⟨h.1.symm, zero_append_low (m := 24) h.2⟩
  | txraw | rxraw | bsref | bsagg | bsval => exact ⟨h.1.symm, zero_append_low (m := 16) h.2⟩
  | rxdec => exact ⟨sub_of_rxdec h.1, h.2.symm⟩
  | venc | vdec => exact ⟨zero_append_low (m := 4) h, rfl⟩
  | miadd => exact ⟨h.1.symm, imm_of_miadd h.2⟩
  | _ => exact ⟨h.1.symm, h.2.symm⟩

/-! ### The opcode map -/

/-- The bits of `sub` a format says must be 0 (R57). -/
def WordFormat.subZeros : WordFormat → BitVec 8
  | .z | .i8 | .i16 | .m => BitVec.allOnes 8
  | .f => BitVec.allOnes 3 ++ 0#5
  | .fi => BitVec.allOnes 4 ++ 0#4
  | .r | .ri => 0#8

/-- The bits of `imm` a format says must be 0 (R57). -/
def WordFormat.immZeros : WordFormat → Word
  | .z | .r | .f => BitVec.allOnes 32
  | .i8 => BitVec.allOnes 24 ++ 0#8
  | .i16 => BitVec.allOnes 16 ++ 0#16
  | .m => BitVec.allOnes 8 ++ 0#24
  | .ri | .fi => 0#32

theorem WordFormat.allows_iff (fmt : WordFormat) (sub : BitVec 8) (imm : Word) :
    fmt.Allows sub imm ↔ sub &&& fmt.subZeros = 0#8 ∧ imm &&& fmt.immZeros = 0#32 := by
  have hall {n : Nat} (x : BitVec n) : x &&& BitVec.allOnes n = 0#n ↔ x = 0#n := by rw [BitVec.and_allOnes]
  cases fmt with
  | z => exact (and_congr (hall sub) (hall imm)).symm
  | i8 => exact (and_congr (hall sub) (and_highOnes_eq_zero_iff (m := 24) (n := 8))).symm
  | i16 => exact (and_congr (hall sub) (and_highOnes_eq_zero_iff (m := 16) (n := 16))).symm
  | r => exact ((and_iff_right BitVec.and_zero).trans (hall imm)).symm
  | ri => exact iff_of_true trivial ⟨BitVec.and_zero, BitVec.and_zero⟩
  | f => exact (and_congr (and_highOnes_eq_zero_iff (m := 3) (n := 5)) (hall imm)).symm
  | fi => exact ((and_iff_left BitVec.and_zero).trans (and_highOnes_eq_zero_iff (m := 4) (n := 4))).symm
  | m => exact (and_congr (hall sub) (and_highOnes_eq_zero_iff (m := 8) (n := 24))).symm

/-- The row of a command in the opcode map. -/
def rowOf (i : Instr) : OpRow where
  mnemonic := mnemonic i
  pattern := cmdWord (opcode i) 0#8 0#32
  mask := cmdWord (BitVec.allOnes 8) (formatOf i).subZeros (formatOf i).immZeros

/-- One command of every row, in the order of the opcode map. -/
def commandOfEachRow : List Instr :=
  [.nop, .srst, .get 0#8, .set 0#8 0#32, .csinit, .csadd 0#8, .csrd, .txclr, .bldrd, .bldwr, .txraw 0#16, .rxrst,
   .rxb 0#8, .rxdec false 0#4, .rxerr, .rxraw 0#16, .venc 0#4 0#32, .vdec 0#4 0#32, .miadd 0#8 0#16, .asmcls 0#8,
   .bsflg, .bstime, .bscnt, .bsref 0#16, .bsagg 0#16, .bsval 0#16]

theorem opcodeMap_eq : opcodeMap = commandOfEachRow.map rowOf := rfl

theorem rowOf_mem (i : Instr) : rowOf i ∈ opcodeMap := by
  have hrow : rowOf i = rowOf (withOperands i 0#8 0#32) := by cases i <;> rfl
  have hmem : withOperands i 0#8 0#32 ∈ commandOfEachRow := by
    cases i <;> simp [withOperands, commandOfEachRow]
  rw [opcodeMap_eq, hrow]
  exact List.mem_map_of_mem hmem

theorem cmdWord_and (op op' sub sub' : BitVec 8) (imm imm' : Word) :
    cmdWord op sub imm &&& cmdWord op' sub' imm' = cmdWord (op &&& op') (sub &&& sub') (imm &&& imm') :=
  BitVec.and_append.trans (congrArg (· ++ (imm &&& imm')) BitVec.and_append)

theorem cmdWord_inj {op op' sub sub' : BitVec 8} {imm imm' : Word} :
    cmdWord op sub imm = cmdWord op' sub' imm' ↔ op = op' ∧ sub = sub' ∧ imm = imm' := by
  constructor
  · intro h
    exact ⟨by simpa using congrArg opField h, by simpa using congrArg subField h, by simpa using congrArg immField h⟩
  · rintro ⟨rfl, rfl, rfl⟩
    rfl

/-- A word selects a row when it has the opcode and the format allows the rest: match and mask say no more (R62). -/
theorem selects_rowOf_iff {w : CmdWord} {i : Instr} :
    (rowOf i).selects w = true ↔ opField w = opcode i ∧ (formatOf i).Allows (subField w) (immField w) := by
  rw [OpRow.selects, beq_iff_eq, ← cmdWord_fields w, rowOf, cmdWord_and, cmdWord_inj, BitVec.and_allOnes,
    ← WordFormat.allows_iff, cmdWord_fields]

theorem exists_command_of_row {r : OpRow} (h : r ∈ opcodeMap) : ∃ i, rowOf i = r := by
  rw [opcodeMap_eq] at h
  obtain ⟨i, -, hi⟩ := List.mem_map.mp h
  exact ⟨i, hi⟩

/-- A word that decodes selects the row of its command. -/
theorem selects_of_decode {w : CmdWord} {i : Instr} (h : decode w = .ok i) : (rowOf i).selects w = true := by
  have hop := (opcode_of_decode h).symm
  obtain ⟨hallows, -⟩ := (decode_eq_ok_iff hop).mp h
  exact selects_rowOf_iff.mpr ⟨hop, hallows⟩

/-- A word that selects a row decodes to the command of that row with the word's operands. -/
theorem decode_of_selects {w : CmdWord} {i : Instr} (h : (rowOf i).selects w = true) :
    decode w = .ok (withOperands i (subField w) (immField w)) := by
  obtain ⟨hop, hallows⟩ := selects_rowOf_iff.mp h
  exact (decode_eq_ok_iff hop).mpr ⟨hallows, rfl⟩

/-- A word that selects no row does not decode. -/
theorem decode_error_of_no_row {w : CmdWord} (h : ∀ r ∈ opcodeMap, r.selects w = false) : ∃ e, decode w = .error e := by
  cases hd : decode w with
  | error e => exact ⟨e, rfl⟩
  | ok i =>
    have hfalse := h (rowOf i) (rowOf_mem i)
    rw [selects_of_decode hd] at hfalse
    contradiction

/-- Every row fixes the whole opcode. -/
theorem opField_of_selects {w : CmdWord} {r : OpRow} (hr : r ∈ opcodeMap) (h : r.selects w = true) :
    opField w = opField r.pattern := by
  obtain ⟨i, rfl⟩ := exists_command_of_row hr
  obtain ⟨hop, -⟩ := selects_rowOf_iff.mp h
  rw [hop, rowOf, opField_cmdWord]

theorem opcodes_nodup : (opcodeMap.map fun r => opField r.pattern).Nodup := by decide

/-! ### Illegal words -/

/-- A word that does not decode, or decodes to a command that is illegal as it stands, faults with ERR_ILL (R64). -/
theorem step_of_illegal {s : State} {w : CmdWord} {rest : List CmdWord} (hcmds : s.cmds = w :: rest)
    (h : ∀ i, decode w = .ok i → exec i { s with cmds := rest } = .next (State.raise { s with cmds := rest } .ill)) :
    step s = .next (faulted { s with cmds := rest } 1) := by
  rw [step_cons hcmds]
  cases hd : decode w with
  | ok i => exact h i hd
  | error e => rfl

theorem regOfNumber_eq_none {n : BitVec 8} (h : n ∉ assignedNumbers) : Reg.ofNumber n = none := by
  have hnumbers : assignedNumbers = Reg.all.map Reg.number := rfl
  refine List.find?_eq_none.mpr fun r hr hn => h ?_
  rw [hnumbers, ← beq_iff_eq.mp hn]
  exact List.mem_map_of_mem hr

theorem mem_writableNumbers {n : BitVec 8} {r : Reg} (hn : Reg.ofNumber n = some r) (hr : r.writable = true) :
    n ∈ writableNumbers := by
  have hnumber : (r.number == n) = true := List.find?_some (p := fun q : Reg => q.number == n) hn
  rw [← beq_iff_eq.mp hnumber]
  revert hr
  cases r <;> decide

/-- GET of a number that names no register (R129). -/
theorem execGet_of_unassigned {reg : BitVec 8} (h : reg ∉ assignedNumbers) (s : State) :
    exec (.get reg) s = .next (s.raise .ill) := by
  simp only [exec, execGet, regOfNumber_eq_none h, raiseFault_eq]

/-- SET of a number that names no register, or one that is read-only (R130). -/
theorem execSet_of_not_writable {reg : BitVec 8} (h : reg ∉ writableNumbers) (v : Word) (s : State) :
    exec (.set reg v) s = .next (s.raise .ill) := by
  simp only [exec, execSet]
  split
  case h_6 => exact raiseFault_eq s .ill
  all_goals exact absurd (mem_writableNumbers ‹_› rfl) h

/-! ### The frame on the wire

A field is read back from the offset where its bytes stand (R9). -/

section
variable {f g : Bytes} {k : Nat}

theorem le16_of_drop {v : Half} (h : f.drop k = bytesLe v 2 ++ g) : le16 f k = some v := by
  have hbyte (j : Nat) : f[k + j]? = (bytesLe v 2 ++ g)[j]? := by rw [← h, List.getElem?_drop]
  exact le16_eq_some_iff.mpr ⟨_, _, hbyte 0, hbyte 1, (append_bytes_of_half v).symm⟩

theorem be16_of_drop {v : Half} (h : f.drop k = bytesBe16 v ++ g) : be16 f k = some v := by
  have hbyte (j : Nat) : f[k + j]? = (bytesBe16 v ++ g)[j]? := by rw [← h, List.getElem?_drop]
  exact be16_eq_some_iff.mpr ⟨_, _, hbyte 0, hbyte 1, (append_bytes_of_half v).symm⟩

theorem le32_of_drop {v : Word} (h : f.drop k = bytesLe v 4 ++ g) : le32 f k = some v := by
  have hbyte (j : Nat) : f[k + j]? = (bytesLe v 4 ++ g)[j]? := by rw [← h, List.getElem?_drop]
  exact le32_eq_some_iff.mpr ⟨_, _, _, _, hbyte 0, hbyte 1, hbyte 2, hbyte 3, (append_bytes_of_word v).symm⟩

end

/-! ### The obligations -/

/-- Settles O1: the fields of `encode i` are `i`'s own, its format allows them, and they give `i`'s operands. -/
theorem decodeReadsBackEncode : Obligations.DecodeReadsBackEncode := by
  intro i
  obtain ⟨hop, hsub, himm⟩ := Laws.EncodeFields.of_any i
  rw [decode_eq_ok_iff hop, hsub, himm]
  exact ⟨allows_own_fields i, withOperands_own_fields i⟩

/-- Settles O2: the format of the command allows the word's fields, so its operands give them back. -/
theorem encodeWritesBackDecode : Obligations.EncodeWritesBackDecode := by
  intro w i h
  have hop := opcode_of_decode h
  obtain ⟨hallows, hi⟩ := (decode_eq_ok_iff hop.symm).mp h
  have hfields := fields_of_allows hallows
  rw [hi] at hfields
  exact encode_eq_iff.mpr ⟨hop, hfields⟩

/-- Settles O3: a row is selected under the condition of the decoder's row, and no two rows share an opcode. -/
theorem decodeFollowsOpcodeMap : Obligations.DecodeFollowsOpcodeMap := by
  refine ⟨fun w i h => ⟨rowOf i, rowOf_mem i, selects_of_decode h, rfl⟩, fun w r hr h => ?_, fun w r hr r' hr' h h' => ?_,
    fun w => decode_error_of_no_row⟩
  · obtain ⟨i, rfl⟩ := exists_command_of_row hr
    exact ⟨_, decode_of_selects h, mnemonic_withOperands i _ _⟩
  · exact List.inj_on_of_nodup_map opcodes_nodup hr hr' ((opField_of_selects hr h).symm.trans (opField_of_selects hr' h'))

/-- Settles O5: the three clauses of R64, the word not decoding or decoding to a GET or SET that is refused. -/
theorem illegalWordSetsOnlyFltBit : Obligations.IllegalWordSetsOnlyFltBit := by
  intro s w rest hcmds hillegal
  refine step_of_illegal hcmds fun i hd => ?_
  obtain hnone | ⟨hop, hreg⟩ | ⟨hop, hreg⟩ := hillegal
  · obtain ⟨e, he⟩ := decode_error_of_no_row hnone
    cases hd.symm.trans he
  · obtain ⟨-, rfl⟩ := (decode_eq_ok_iff (i := .get 0#8) hop).mp hd
    exact execGet_of_unassigned hreg _
  · obtain ⟨-, rfl⟩ := (decode_eq_ok_iff (i := .set 0#8 0#32) hop).mp hd
    exact execSet_of_not_writable hreg _ _

/-- Settles O25: the bytes at each offset are the ones the field's writer put there. -/
theorem builtFrameHasWireLayout : Obligations.BuiltFrameHasWireLayout := by
  rintro sid src dst otype oid pid pay f hpay rfl
  have hdat : (dataSection sid otype oid pid pay).length = 10 + pay.length := by
    simp [dataSection]; omega
  have hdata : (frame sid src dst otype oid pid pay).drop 14 =
      dataSection sid otype oid pid pay ++ bytesBe16 (checksum (dataSection sid otype oid pid pay)) := rfl
  refine ⟨frame_length .., rfl, rfl, le32_of_drop rfl, le32_of_drop rfl,
    ⟨_, frame_dataSize .., ?_⟩, be16_of_drop rfl, rfl, rfl, le16_of_drop rfl, le32_of_drop rfl, le16_of_drop rfl, ?_, ?_⟩
  · rw [BitVec.toNat_ofNat]; omega
  · exact List.take_left
  · rw [hdata, List.take_left' hdat]
    refine be16_of_drop (g := []) ?_
    rw [show 24 + pay.length = 14 + (10 + pay.length) by omega, ← List.drop_drop, hdata, List.drop_left' hdat,
      List.append_nil]

/-- Settles O4: each word is the encoding of the command it stands for. -/
theorem specWordsDecode : Obligations.SpecWordsDecode :=
  ⟨decodeReadsBackEncode (.set 0x01#8 101#32), decodeReadsBackEncode (.get 0x2F#8), decodeReadsBackEncode (.csadd 0xFF#8),
    decodeReadsBackEncode (.txraw 26#16), decodeReadsBackEncode (.rxdec true 3#4), decodeReadsBackEncode (.rxdec false 6#4),
    decodeReadsBackEncode (.venc 1#4 0xFFFF8000#32), decodeReadsBackEncode (.miadd 253#8 3000#16),
    decodeReadsBackEncode (.bsval 0xFFFF#16)⟩

end Sys2Proof.Proofs

/-! The statements of 40_checksum.md. Each command of the accumulator is its word, its effect on the pair A, B, and the refusal of
any other word of its opcode, which every command's format gives alike (`refusesWords_of_format`). A run between CSINIT and CSRD
absorbs the bytes of its CSADDs and nothing else (`accOf_runAll`), and the closed form of R84 is an induction on the bytes from
any start values (`absorbAll_modEq`). -/

namespace Sys2Proof.Proofs

open Sys2Proof Sys2Proof.Machine

/-! ### Words with one operand, and words a format refuses -/

theorem cmdWord_or (op op' sub sub' : BitVec 8) (imm imm' : Word) :
    cmdWord op sub imm ||| cmdWord op' sub' imm' = cmdWord (op ||| op') (sub ||| sub') (imm ||| imm') :=
  BitVec.or_append.trans (congrArg (· ++ (imm ||| imm')) BitVec.or_append)

/-- An operand of at most 32 bits, or-ed into a word whose `imm` is 0, is the word's `imm` (R57). -/
theorem cmdWord_or_operand {n : Nat} (hn : n ≤ 32) (op sub : BitVec 8) (v : BitVec n) :
    cmdWord op sub 0#32 ||| v.setWidth 48 = cmdWord op sub (v.setWidth 32) := by
  have hv : v.setWidth 48 = cmdWord 0#8 0#8 (v.setWidth 32) :=
    calc v.setWidth 48
      _ = (v.setWidth 32).setWidth 48 := (BitVec.setWidth_setWidth (by omega)).symm
      _ = 0#16 ++ v.setWidth 32 := BitVec.setWidth_eq_append (by decide)
  rw [hv, cmdWord_or, BitVec.or_zero, BitVec.or_zero, BitVec.zero_or]

/-- The word of CSADD as R82 writes it. -/
theorem encode_csadd (v : Byte) : encode (.csadd v) = 0x110000000000#48 ||| v.setWidth 48 :=
  calc encode (.csadd v)
    _ = cmdWord 0x11#8 0x00#8 (0#24 ++ v) := rfl
    _ = cmdWord 0x11#8 0x00#8 (v.setWidth 32) := by rw [BitVec.setWidth_eq_append (by decide)]; rfl
    _ = 0x110000000000#48 ||| v.setWidth 48 := (cmdWord_or_operand (by decide) 0x11#8 0x00#8 v).symm

/-- A word with the opcode of `i` whose other fields the format of `i` does not allow does not decode, so it is illegal
(R58, R64). -/
theorem refusesWords_of_format (i : Instr) : RefusesWords (opcode i) (formatOf i).Allows := by
  intro s w rest hcmds hop hrefused
  refine step_of_illegal hcmds fun j hd => ?_
  obtain ⟨hallows, -⟩ := (decode_eq_ok_iff hop).mp hd
  exact absurd hallows hrefused

/-! ### The accumulator through commands -/

theorem zext_half (v : Half) : zext v = 0#16 ++ v := BitVec.setWidth_eq_append (by decide)

/-- `{A, B}` in the response: A above B, zeros above both. -/
theorem zext_accWord (acc : Acc) : zext (accWord acc) = 0#16 ++ acc.1 ++ acc.2 := by
  rw [zext_half, BitVec.append_assoc]
  rfl

theorem exec_csinit (s : State) : exec .csinit s = .next (answered { s with a := 0xFF#8, b := 0x00#8 } 0#32) := rfl

theorem exec_csrd (s : State) : exec .csrd s = .next (answered s (zext (accWord (accOf s)))) := rfl

theorem exec_csadd (v : Byte) (s : State) :
    exec (.csadd v) s = .next (answered { s with a := s.a + v, b := s.b + (s.a + v) }
      (zext (accWord (s.a + v, s.b + (s.a + v))))) := rfl

theorem accOf_csinit {s t : State} (h : exec .csinit s = .next t) : accOf t = accInit := by
  rw [exec_csinit] at h
  cases h
  rfl

theorem csaddByte_eq_some_iff {i : Instr} {v : Byte} : csaddByte i = some v ↔ i = .csadd v := by
  cases i <;> simp [csaddByte]

/-- A command that is no other writer of A and B than CSADD absorbs its byte, if it has one (R17). -/
theorem accOf_exec {i : Instr} {s t : State} (hi : writesAcc i = true → (csaddByte i).isSome = true)
    (h : exec i s = .next t) : accOf t = absorbAll (accOf s) (csaddByte i).toList := by
  cases hv : csaddByte i with
  | some v =>
    obtain rfl := csaddByte_eq_some_iff.mp hv
    cases h
    rfl
  | none =>
    have hkeeps : writesAcc i = false := by simpa [hv] using hi
    have hsrst : i ≠ .srst := by
      rintro rfl
      contradiction
    obtain ⟨hacc, -⟩ := onlyListedWritersChangeState s t i h hsrst
    obtain ⟨ha, hb⟩ := hacc hkeeps
    exact Prod.ext ha hb

/-- A run that completes begins with a command that answers. -/
theorem runAll_cons_next {i : Instr} {is : List Instr} {s t : State} (h : runAll (i :: is) s = .next t) :
    ∃ u, exec i s = .next u ∧ runAll is u = .next t := by
  rw [runAll] at h
  cases he : exec i s with
  | next u => exact ⟨u, rfl, by rwa [he] at h⟩
  | fault f => rw [he] at h; cases h
  | refused r => rw [he] at h; cases h

/-- A run with no other writer of A and B than CSADD absorbs the bytes of its CSADDs in order. -/
theorem accOf_runAll {is : List Instr} {s t : State}
    (his : ∀ i ∈ is, writesAcc i = true → (csaddByte i).isSome = true) (h : runAll is s = .next t) :
    accOf t = absorbAll (accOf s) (is.filterMap csaddByte) := by
  induction is generalizing s with
  | nil =>
    cases h
    rfl
  | cons i is ih =>
    obtain ⟨hi, his⟩ := List.forall_mem_cons.mp his
    obtain ⟨u, hexec, hrun⟩ := runAll_cons_next h
    rw [ih his hrun, accOf_exec hi hexec]
    cases hv : csaddByte i <;> simp [hv, absorbAll]

/-- CSADD answers in every state, so a run of CSADDs completes. -/
theorem runAll_csadds_completes (bytes : Bytes) (s : State) : ∃ t, runAll (bytes.map .csadd) s = .next t := by
  induction bytes generalizing s with
  | nil => exact ⟨s, rfl⟩
  | cons v bytes ih => exact ih _

/-! ### The closed form

Sums over the bytes in the form of R84, taken apart at the first byte. -/

/-- The sum of `s[i]`. -/
def byteSum (bytes : Bytes) : Nat := ∑ i : Fin bytes.length, bytes[i].toNat

/-- The sum of `(n − i)·s[i]`. -/
def weightedSum (bytes : Bytes) : Nat := ∑ i : Fin bytes.length, (bytes.length - i.val) * bytes[i].toNat

theorem byteSum_cons (v : Byte) (bytes : Bytes) : byteSum (v :: bytes) = v.toNat + byteSum bytes :=
  Fin.sum_univ_succ fun i : Fin (bytes.length + 1) => (v :: bytes)[i].toNat

theorem weightedSum_cons (v : Byte) (bytes : Bytes) :
    weightedSum (v :: bytes) = (bytes.length + 1) * v.toNat + weightedSum bytes := by
  refine (Fin.sum_univ_succ fun i : Fin (bytes.length + 1) =>
    (bytes.length + 1 - i.val) * (v :: bytes)[i].toNat).trans ?_
  simp [weightedSum]

theorem toNat_add_modEq (x y : Byte) : (x + y).toNat ≡ x.toNat + y.toNat [MOD 256] := by
  rw [BitVec.toNat_add]
  exact Nat.mod_modEq _ _

/-- What absorbing does to start values `(a, b)`: A gains every byte once, B gains A's start value with every byte and each byte
once for itself and once for every byte after it. -/
theorem absorbAll_modEq (acc : Acc) (bytes : Bytes) :
    (absorbAll acc bytes).1.toNat ≡ acc.1.toNat + byteSum bytes [MOD 256] ∧
    (absorbAll acc bytes).2.toNat ≡ acc.2.toNat + (bytes.length * acc.1.toNat + weightedSum bytes) [MOD 256] := by
  induction bytes generalizing acc with
  | nil => exact ⟨rfl, by simp [absorbAll, weightedSum, Nat.ModEq]⟩
  | cons v bytes ih =>
    obtain ⟨ha, hb⟩ := ih (absorb acc v)
    have ha1 : (absorb acc v).1.toNat ≡ acc.1.toNat + v.toNat [MOD 256] := toNat_add_modEq _ _
    have hb1 : (absorb acc v).2.toNat ≡ acc.2.toNat + (acc.1.toNat + v.toNat) [MOD 256] :=
      (toNat_add_modEq _ _).trans (ha1.add_left _)
    constructor
    · calc (absorbAll acc (v :: bytes)).1.toNat
        _ ≡ (absorb acc v).1.toNat + byteSum bytes [MOD 256] := ha
        _ ≡ acc.1.toNat + v.toNat + byteSum bytes [MOD 256] := ha1.add_right _
        _ = acc.1.toNat + byteSum (v :: bytes) := by rw [byteSum_cons, Nat.add_assoc]
    · calc (absorbAll acc (v :: bytes)).2.toNat
        _ ≡ (absorb acc v).2.toNat + (bytes.length * (absorb acc v).1.toNat + weightedSum bytes) [MOD 256] := hb
        _ ≡ acc.2.toNat + (acc.1.toNat + v.toNat) +
              (bytes.length * (acc.1.toNat + v.toNat) + weightedSum bytes) [MOD 256] :=
            hb1.add ((ha1.mul_left _).add_right _)
        _ = acc.2.toNat + ((v :: bytes).length * acc.1.toNat + weightedSum (v :: bytes)) := by
            rw [weightedSum_cons, List.length_cons]; ring

/-- A byte is the remainder of whatever it is congruent to. -/
theorem byte_toNat_of_modEq {x : Byte} {n : Nat} (h : x.toNat ≡ n [MOD 256]) : x.toNat = n % 256 :=
  (Nat.mod_eq_of_lt x.isLt).symm.trans h

/-- A zero byte leaves A and adds it to B. -/
theorem absorbAll_zeros (acc : Acc) (n : Nat) :
    absorbAll acc (List.replicate n 0x00#8) = (acc.1, acc.2 + BitVec.ofNat 8 n * acc.1) := by
  induction n generalizing acc with
  | zero => simp [absorbAll]
  | succ n ih =>
    calc absorbAll acc (List.replicate (n + 1) 0x00#8)
      _ = absorbAll (absorb acc 0x00#8) (List.replicate n 0x00#8) := rfl
      _ = (acc.1, acc.2 + BitVec.ofNat 8 (n + 1) * acc.1) := by
          rw [ih, absorb, BitVec.add_zero, BitVec.ofNat_add, BitVec.add_mul, BitVec.one_mul, BitVec.add_assoc,
            BitVec.add_comm acc.1]

/-! ### The obligations -/

/-- Settles O18: the word is the encoding of the command with the byte in `imm`. -/
theorem csaddAbsorbsByte : Obligations.CsaddAbsorbsByte := by
  refine ⟨fun v => ?_, fun s v => ?_, refusesWords_of_format (.csadd 0#8)⟩
  · rw [← encode_csadd, decodeReadsBackEncode]
  · refine ⟨s.a + v, s.b + (s.a + v), BitVec.toNat_add _ _, BitVec.toNat_add _ _, ?_⟩
    rw [exec_csadd, zext_accWord]

/-- Settles O17: the word is the encoding of CSINIT. -/
theorem csinitStartsChecksum : Obligations.CsinitStartsChecksum :=
  ⟨decodeReadsBackEncode .csinit, exec_csinit, refusesWords_of_format .csinit⟩

/-- Settles O19: the response is the pair of the state, which CSRD leaves as it is. -/
theorem csrdReturnsChecksum : Obligations.CsrdReturnsChecksum := by
  refine ⟨decodeReadsBackEncode .csrd, fun s => ?_, refusesWords_of_format .csrd⟩
  rw [exec_csrd, zext_accWord, accOf]

/-- Settles O20: CSINIT gives the start values of R80, the run absorbs the bytes from there. -/
theorem checksumOfAbsorbedSequence : Obligations.ChecksumOfAbsorbedSequence := by
  refine ⟨?_, fun s bytes => runAll_csadds_completes bytes ((s.setAcc accInit.1 accInit.2).respond 0#32)⟩
  rintro s t is bytes his rfl hrun
  obtain ⟨u, hinit, hrun⟩ := runAll_cons_next hrun
  have hsum : accWord (accOf t) = checksum (is.filterMap csaddByte) := by
    rw [accOf_runAll his hrun, accOf_csinit hinit, checksum]
  refine ⟨hsum, ?_⟩
  rw [exec_csrd, hsum, zext_half]

/-- Settles O21: both accumulators from the start values 0xFF and 0, and the special case of zero bytes, where B is n·0xFF. -/
theorem checksumHasClosedForm : Obligations.ChecksumHasClosedForm := by
  constructor
  · intro bytes
    obtain ⟨ha, hb⟩ := absorbAll_modEq accInit bytes
    calc (checksum bytes).toNat
      _ = 256 * (absorbAll accInit bytes).1.toNat + (absorbAll accInit bytes).2.toNat := toNat_append_byte _ _
      _ = 256 * ((0xFF + byteSum bytes) % 256) + (0 + (bytes.length * 0xFF + weightedSum bytes)) % 256 := by
          rw [byte_toNat_of_modEq ha, byte_toNat_of_modEq hb]; rfl
      _ = 256 * ((0xFF + byteSum bytes) % 256) + (bytes.length * 0xFF + weightedSum bytes) % 256 := by rw [Nat.zero_add]
  · intro n
    have hneg : (0xFF#8 : Byte) = -1 := rfl
    have hb : 0x00#8 + BitVec.ofNat 8 n * 0xFF#8 = 0x00#8 - BitVec.ofNat 8 n := by rw [hneg]; ring
    rw [checksum, absorbAll_zeros]
    exact congrArg (0xFF#8 ++ ·) hb

end Sys2Proof.Proofs

/-! The statements of 41_frame_builder.md. Both builds are one operation, whose next state is written out once (`build_answers`);
the data checksum stands where R65 puts it for every payload that fits (`be16_frame_dataChecksum`). The round trip of R91 is an
induction on the bytes still to be fed (`runAll_rxbs_of_done`): a frame cut short stands in neither S_DONE nor S_FAULT
(`not_done_of_longer_done`), so the parser takes every byte; the registers are then the fields of R65. -/

namespace Sys2Proof.Proofs

open Sys2Proof Sys2Proof.Machine

/-! ### Words with one operand -/

/-- A command whose only operand stands in `imm` is its opcode with the operand or-ed in (R57). -/
theorem encode_of_operand {i : Instr} {op : BitVec 8} {n : Nat} {v : BitVec n} (hn : n ≤ 32) (hop : opcode i = op)
    (hsub : subOf i = 0#8) (himm : immOf i = v.setWidth 32) : encode i = cmdWord op 0#8 0#32 ||| v.setWidth 48 := by
  rw [encode, hop, hsub, himm, cmdWord_or_operand hn]

/-- The word of TXRAW as R90 writes it. -/
theorem encode_txraw (i : Half) : encode (.txraw i) = 0x230000000000#48 ||| i.setWidth 48 :=
  encode_of_operand (op := 0x23#8) (by decide) rfl rfl (zext_half i).symm

/-! ### Values in the response -/

theorem zext_byte (v : Byte) : zext v = 0#24 ++ v := BitVec.setWidth_eq_append (by decide)

theorem zext_eq_ofNat_toNat {w : Nat} (v : BitVec w) : zext v = BitVec.ofNat 32 v.toNat :=
  (BitVec.ofNat_toNat 32 v).symm

theorem zext_ofNat_half {n : Nat} (h : n < 2 ^ 16) : zext (BitVec.ofNat 16 n) = BitVec.ofNat 32 n := by
  rw [zext_eq_ofNat_toNat, BitVec.toNat_ofNat, Nat.mod_eq_of_lt h]

/-! ### A load by index -/

theorem loadByte_of_some {s : State} {buf : Bytes} {i : Half} {v : Byte} (h : buf[i.toNat]? = some v) :
    loadByte s buf i = .next (answered s (0#24 ++ v)) := by
  rw [← zext_byte]
  simp only [loadByte, h, answer_eq, respond_eq_answered]

theorem loadByte_of_length_le {s : State} {buf : Bytes} {i : Half} (h : buf.length ≤ i.toNat) :
    loadByte s buf i = .next (faulted s 7) := by
  simp only [loadByte, List.getElem?_eq_none h, raiseFault_eq, raise_eq_faulted, FaultCode.number]

/-! ### The build -/

section
variable (sid : Byte) (src dst : Word) (otype : Half) (oid : Word) (pid : Half) (pay : Bytes)

/-- From offset 14 a frame is its data section and the checksum over it (R65). -/
theorem frame_drop_header : (frame sid src dst otype oid pid pay).drop 14 =
    dataSection sid otype oid pid pay ++ bytesBe16 (checksum (dataSection sid otype oid pid pay)) := rfl

/-- The last two bytes of a frame, whatever its length, are the checksum over its data section (R65, R85). -/
theorem be16_frame_dataChecksum : be16 (frame sid src dst otype oid pid pay) (24 + pay.length) =
    some (checksum (dataSection sid otype oid pid pay)) := by
  have hdat : (dataSection sid otype oid pid pay).length = 10 + pay.length := by
    simp [dataSection]; omega
  refine be16_of_drop (g := []) ?_
  rw [show 24 + pay.length = 14 + (10 + pay.length) by omega, ← List.drop_drop, frame_drop_header, List.drop_left' hdat,
    List.append_nil]

end

/-- A build of a payload that fits (R89): A and B are left with the frame's data checksum. -/
theorem build_answers (sid : Byte) {s : State} (hfits : s.txpay.length ≤ s.maxpay) :
    ∃ a1 b1 : Byte,
      be16 (frame sid s.tsrc s.tdst s.totype s.toid s.tpid s.txpay) (24 + s.txpay.length) = some (a1 ++ b1) ∧
      build sid s = .next (answered
        { s with txbuf := frame sid s.tsrc s.tdst s.totype s.toid s.tpid s.txpay,
                 txpay := [], txpk := .empty, a := a1, b := b1 } (BitVec.ofNat 32 (26 + s.txpay.length))) := by
  obtain ⟨dacc, rfl, hbuild⟩ := build_of_le (sid := sid) hfits
  exact ⟨_, _, be16_frame_dataChecksum .., hbuild⟩

theorem exec_bldrd_of_kind {s : State} (h : s.txpk = .empty ∨ s.txpk = .minfo) : exec .bldrd s = build 0x01#8 s :=
  require_of h

theorem exec_bldwr_of_kind {s : State} (h : s.txpk = .value) : exec .bldwr s = build 0x02#8 s :=
  require_of h

theorem exec_bldrd_of_not_kind {s : State} (h : ¬ (s.txpk = .empty ∨ s.txpk = .minfo)) :
    exec .bldrd s = .next (faulted s 5) :=
  require_of_not h

theorem exec_bldwr_of_not_kind {s : State} (h : s.txpk ≠ .value) : exec .bldwr s = .next (faulted s 5) :=
  require_of_not h

/-- A BLDRD or BLDWR that succeeds had a payload that fits, and TXBUF is the frame of R85. -/
theorem txbuf_of_built {s t : State} {i : Instr} {sid : Byte} (hi : i = .bldrd ∧ sid = 0x01#8 ∨ i = .bldwr ∧ sid = 0x02#8)
    (hexec : exec i s = .next t) (hsucceeded : Succeeded t) :
    s.txpay.length ≤ s.maxpay ∧ t.maxpay = s.maxpay ∧
      t.txbuf = frame sid s.tsrc s.tdst s.totype s.toid s.tpid s.txpay := by
  have hbuild : build sid s = .next t := by
    obtain ⟨rfl, rfl⟩ | ⟨rfl, rfl⟩ := hi
    all_goals
      obtain ⟨-, h⟩ | ⟨-, rfl⟩ := require_next hexec
      · exact h
      · exact absurd hsucceeded (raise_not_succeeded _ _)
  obtain ⟨hfits, _, -, rfl⟩ := build_next hbuild
  exact ⟨hfits, rfl, rfl⟩

/-! ### The parser on a whole frame -/

/-- A whole frame of an accepted data size is S_DONE (R33 item 4), the converse of `parserState_done`. -/
theorem parserState_of_whole {maxpay : Nat} {raw : Bytes} {n : Nat} (hn : payloadLength raw = some n)
    (hlen : raw.length = 26 + n) (hmax : n ≤ maxpay) : parserState maxpay raw = some .done := by
  obtain ⟨d, hd, hsize⟩ := payloadLength_eq_some_iff.mp hn
  simp only [parserState, hd]
  rw [if_neg (by omega), if_neg (by omega), if_neg (by omega), if_neg (by omega), if_neg (by omega), if_neg (by omega),
    if_pos (by omega)]

/-- S_FAULT is where the data size is refused (R33 item 4). -/
theorem parserState_fault {maxpay : Nat} {raw : Bytes} (hp : parserState maxpay raw = some .fault) :
    ∃ d, le16 raw 10 = some d ∧ ¬ (10 ≤ d.toNat ∧ d.toNat ≤ 10 + maxpay) := by
  unfold parserState at hp
  repeat' split at hp
  all_goals cases hp
  exact ⟨_, ‹_›, ‹_›⟩

/-- Appending leaves PLEN once the data size is there. -/
theorem payloadLength_append {raw rest : Bytes} {n : Nat} (h : payloadLength raw = some n) :
    payloadLength (raw ++ rest) = some n := by
  obtain ⟨d, hd, hsize⟩ := payloadLength_eq_some_iff.mp h
  exact payloadLength_eq_some_iff.mpr ⟨d, le16_append hd, hsize⟩

/-- A whole frame cut short is neither a whole frame, for both would have the same data size, nor one of a refused
size. -/
theorem not_done_of_longer_done {maxpay : Nat} {raw rest : Bytes} {v : Byte} {st : RxState}
    (hst : parserState maxpay raw = some st) (hdone : parserState maxpay (raw ++ v :: rest) = some .done) :
    st ≠ .done ∧ st ≠ .fault := by
  obtain ⟨n, hn, hlen, hmax⟩ := parserState_done hdone
  rw [List.length_append, List.length_cons] at hlen
  constructor
  · rintro rfl
    obtain ⟨m, hm, hlen', -⟩ := parserState_done hst
    obtain rfl : m = n := Option.some.inj ((payloadLength_append hm).symm.trans hn)
    omega
  · rintro rfl
    obtain ⟨d, hd, hrefused⟩ := parserState_fault hst
    obtain ⟨d', hd', hsize⟩ := payloadLength_eq_some_iff.mp hn
    obtain rfl : d = d' := Option.some.inj ((le16_append hd).symm.trans hd')
    omega

/-- RXB before S_DONE and S_FAULT answers in every state of the invariant, with the byte appended (R94). -/
theorem exec_rxb_of_open {s : State} (hinv : Inv s) (hopen : s.rxst ≠ .done ∧ s.rxst ≠ .fault) (v : Byte) :
    ∃ t, exec (.rxb v) s = .next t ∧ t.raw = s.raw ++ [v] ∧ t.maxpay = s.maxpay := by
  obtain ⟨hdone, hfault⟩ := hopen
  obtain ⟨st, hst, -, hfits⟩ := nextState_parserState (v := v) hinv.parser hdone hfault
  have hraw : memAppend (Config.maxFrame s.maxpay) s.raw [v] = some (s.raw ++ [v]) :=
    memAppend_of_le (by rwa [List.length_append] at hfits)
  simp only [exec, execRxb, require_of (c := _ ∧ _) ⟨hdone, hfault⟩, hraw, hst, orFault_some]
  split
  · exact ⟨_, rfl, rfl, rfl⟩
  · exact ⟨_, rfl, rfl, rfl⟩

theorem runAll_cons_of_next {i : Instr} {is : List Instr} {s t : State} (h : exec i s = .next t) :
    runAll (i :: is) s = runAll is t := by
  rw [runAll, h]

/-- The bytes that complete a whole frame, one RXB each, end in S_DONE with the frame in RAW. -/
theorem runAll_rxbs_of_done {s : State} {rest : Bytes} (hinv : Inv s)
    (hdone : parserState s.maxpay (s.raw ++ rest) = some .done) :
    ∃ u, runAll (rest.map .rxb) s = .next u ∧ Inv u ∧ u.rxst = .done ∧ u.raw = s.raw ++ rest := by
  induction rest generalizing s with
  | nil =>
    rw [List.append_nil] at hdone ⊢
    exact ⟨s, rfl, hinv, Option.some.inj (hinv.parser.symm.trans hdone), rfl⟩
  | cons v rest ih =>
    obtain ⟨t, hexec, hraw, hmax⟩ := exec_rxb_of_open hinv (not_done_of_longer_done hinv.parser hdone) v
    have hbytes : s.raw ++ v :: rest = t.raw ++ rest := by rw [hraw, List.append_assoc, List.singleton_append]
    rw [hbytes, ← hmax] at hdone
    rw [List.map_cons, runAll_cons_of_next hexec, hbytes]
    exact ih (exec_inv hexec hinv) hdone

/-- A freshly reset parser takes a whole frame to S_DONE (R92). -/
theorem runAll_rxrst_rxbs_of_done {s : State} {f : Bytes} (hinv : Inv s) (hdone : parserState s.maxpay f = some .done) :
    ∃ u, runAll (.rxrst :: f.map .rxb) s = .next u ∧ Inv u ∧ u.rxst = .done ∧ u.raw = f :=
  runAll_rxbs_of_done (exec_inv (i := .rxrst) rfl hinv) hdone

/-- A built frame is whole: its data size does not wrap, MAXPAY being legal (R6). -/
theorem parserState_frame {maxpay : Nat} {sid : Byte} {src dst : Word} {otype : Half} {oid : Word} {pid : Half} {pay : Bytes}
    (hmax : maxpay ≤ 32757) (hfits : pay.length ≤ maxpay) :
    parserState maxpay (frame sid src dst otype oid pid pay) = some .done := by
  refine parserState_of_whole (payloadLength_eq_some_iff.mpr ⟨_, frame_dataSize .., ?_⟩) (frame_length ..) hfits
  rw [BitVec.toNat_ofNat]
  omega

/-! ### The registers of a built frame -/

/-- GET in S_DONE answers what the register holds (R129). -/
theorem exec_get_of_done {s : State} {reg : BitVec 8} {r : Reg} {v : Word} (hreg : Reg.ofNumber reg = some r)
    (hdone : s.rxst = .done) (hv : readReg r s = some v) : exec (.get reg) s = .next (answered s v) := by
  simp only [exec, execGet, hreg, require_of (c := _ ∨ _) (.inr hdone), hv, orFault_some, answer_eq, respond_eq_answered]

/-- GET of the frame's fields where RAW is a built frame: what it was built from, and both checksums and the marker right. -/
theorem exec_get_of_frame {u : State} {sid : Byte} {src dst : Word} {otype : Half} {oid : Word} {pid : Half} {pay : Bytes}
    (hinv : Inv u) (hdone : u.rxst = .done) (hpay : pay.length ≤ 32757)
    (hraw : u.raw = frame sid src dst otype oid pid pay) :
    exec (.get 0x24#8) u = .next (answered u src) ∧
    exec (.get 0x25#8) u = .next (answered u dst) ∧
    exec (.get 0x2A#8) u = .next (answered u (BitVec.ofInt 32 otype.toInt)) ∧
    exec (.get 0x2B#8) u = .next (answered u oid) ∧
    exec (.get 0x2C#8) u = .next (answered u (BitVec.ofInt 32 pid.toInt)) ∧
    exec (.get 0x29#8) u = .next (answered u (0#24 ++ sid)) ∧
    exec (.get 0x28#8) u = .next (answered u 0#32) ∧
    exec (.get 0x23#8) u = .next (answered u 0#32) ∧
    exec (.get 0x26#8) u = .next (answered u (BitVec.ofNat 32 (10 + pay.length))) ∧
    exec (.get 0x2D#8) u = .next (answered u (BitVec.ofNat 32 pay.length)) ∧
    (u.raw.drop 24).take pay.length = pay ∧
    exec (.get 0x2F#8) u = .next (answered u 7#32) := by
  obtain ⟨-, hsofb, hfflags, hsrc, hdst, ⟨d, hd, hsize⟩, hhck, hsflags, hsid, hotype, hoid, hpid, hbytes, hdck⟩ :=
    builtFrameHasWireLayout sid src dst otype oid pid pay u.raw hpay hraw
  have hplen : payloadLength u.raw = some pay.length := payloadLength_eq_some_iff.mpr ⟨d, hd, hsize⟩
  refine ⟨exec_get_of_done (r := .src) (by decide) hdone hsrc, exec_get_of_done (r := .dst) (by decide) hdone hdst,
    exec_get_of_done (r := .otype) (by decide) hdone (congrArg (Option.map sext16) hotype),
    exec_get_of_done (r := .oid) (by decide) hdone hoid,
    exec_get_of_done (r := .pid) (by decide) hdone (congrArg (Option.map sext16) hpid),
    exec_get_of_done (r := .sid) (by decide) hdone ?_,
    exec_get_of_done (r := .sflags) (by decide) hdone (congrArg (Option.map zext) hsflags),
    exec_get_of_done (r := .fflags) (by decide) hdone (congrArg (Option.map zext) hfflags),
    exec_get_of_done (r := .dlen) (by decide) hdone ?_, exec_get_of_done (r := .plen) (by decide) hdone ?_, hbytes, ?_⟩
  · rw [← zext_byte]
    exact congrArg (Option.map zext) hsid
  · rw [← hsize, ← zext_eq_ofNat_toNat]
    exact congrArg (Option.map zext) hd
  · rw [← zext_ofNat_half (by omega)]
    exact congrArg (Option.map fun n => zext (BitVec.ofNat 16 n)) hplen
  · rw [getReadsFrameFlags u pay.length _ _ _ _ hinv ⟨hdone, d, hd, hsize⟩ hsofb hsflags hhck hdck]
    simp

/-! ### The obligations -/

/-- Settles O23: the kind allows the build, or BLDRD's one check faults. -/
theorem bldrdBuildsReadRequest : Obligations.BldrdBuildsReadRequest := by
  refine ⟨decodeReadsBackEncode .bldrd, fun s hkind hfits => ?_, fun s hkind => exec_bldrd_of_not_kind ?_,
    refusesWords_of_format .bldrd⟩
  · rw [exec_bldrd_of_kind hkind]
    exact build_answers 0x01#8 hfits
  · obtain h | h := hkind <;> simp [h]

/-- Settles O24: the kind allows the build, or BLDWR's one check faults. -/
theorem bldwrBuildsWriteRequest : Obligations.BldwrBuildsWriteRequest := by
  refine ⟨decodeReadsBackEncode .bldwr, fun s hkind hfits => ?_, fun s => exec_bldwr_of_not_kind,
    refusesWords_of_format .bldwr⟩
  rw [exec_bldwr_of_kind hkind]
  exact build_answers 0x02#8 hfits

/-- Settles O26: TXRAW is a load by index from TXBUF. -/
theorem txrawReadsBuiltFrame : Obligations.TxrawReadsBuiltFrame := by
  refine ⟨fun i => ?_, fun s i v => loadByte_of_some, fun s i => loadByte_of_length_le, refusesWords_of_format (.txraw 0#16)⟩
  rw [← encode_txraw, decodeReadsBackEncode]

/-- Settles O27: what a build leaves in TXBUF is a whole frame, which the parser takes to S_DONE and GET reads field by field. -/
theorem buildParseRoundTrip : Obligations.BuildParseRoundTrip := by
  intro s t i sid hinv hi hexec hsucceeded
  obtain ⟨hfits, hmax, hbuf⟩ := txbuf_of_built hi hexec hsucceeded
  obtain ⟨-, hlegal⟩ := hinv.config
  have hframe : parserState t.maxpay t.txbuf = some .done := by
    rw [hmax, hbuf]
    exact parserState_frame hlegal hfits
  obtain ⟨u, hrun, hinvu, hdone, hraw⟩ := runAll_rxrst_rxbs_of_done (exec_inv hexec hinv) hframe
  exact ⟨u, hrun, hdone, hraw, exec_get_of_frame hinvu hdone (hfits.trans hlegal) (hraw.trans hbuf)⟩

/-- Settles O22: TXCLR has no check. -/
theorem txclrEmptiesPayload : Obligations.TxclrEmptiesPayload :=
  ⟨decodeReadsBackEncode .txclr, fun _ => rfl, refusesWords_of_format .txclr⟩

end Sys2Proof.Proofs

/-! The statements of 42_frame_parser.md. RXB is its row of R95 (`nextState`, one lemma per row) with the fault or the answer that
the row's state calls for (`exec_rxb_of_nextState`). RXDEC beyond its first checks is one equation (`exec_rxdec_of_frame`), whose
width is the one R98 selects (`frameWidth_eq`); what stands at that width is read byte by byte (`memRead_succ`). -/

namespace Sys2Proof.Proofs

open Sys2Proof Sys2Proof.Machine

/-! ### Words of the parser's commands -/

/-- The word of RXB as R94 writes it. -/
theorem encode_rxb (v : Byte) : encode (.rxb v) = 0x310000000000#48 ||| v.setWidth 48 :=
  encode_of_operand (op := 0x31#8) (by decide) rfl rfl (zext_byte v).symm

/-- The word of RXRAW as R103 writes it. -/
theorem encode_rxraw (i : Half) : encode (.rxraw i) = 0x340000000000#48 ||| i.setWidth 48 :=
  encode_of_operand (op := 0x34#8) (by decide) rfl rfl (zext_half i).symm

/-- The word of RXDEC as R100 writes it: `rd` in bit 4 of `sub`, the tag below it. -/
theorem encode_rxdec (rd : Bool) (fmt : BitVec 4) : encode (.rxdec rd fmt) =
    0x320000000000#48 ||| ((BitVec.ofBool rd).setWidth 48 <<< 36) ||| (fmt.setWidth 48 <<< 32) := by
  revert rd fmt
  decide

/-! ### The rows of R95 -/

section
variable {maxpay p : Nat} {raw : Bytes} {d : Half}

theorem nextState_sof : nextState maxpay .sof 0 raw = some .hdr := rfl

theorem nextState_hdr (hfirst : 1 ≤ p) (hlast : p ≤ 10) : nextState maxpay .hdr p raw = some .hdr :=
  if_pos ⟨hfirst, hlast⟩

theorem nextState_hdr_size (hd : le16 raw 10 = some d) :
    nextState maxpay .hdr 11 raw = some (if sizeAccepted maxpay d then .hck else .fault) :=
  congrArg (Option.map _) hd

theorem nextState_hck_first : nextState maxpay .hck 12 raw = some .hck := rfl

theorem nextState_hck_last : nextState maxpay .hck 13 raw = some .data := rfl

theorem nextState_data (hd : le16 raw 10 = some d) (hfirst : 14 ≤ p) (hlast : p ≤ 12 + d.toNat) :
    nextState maxpay .data p raw = some .data := by
  simp only [nextState, hd, if_pos (And.intro hfirst hlast)]

theorem nextState_data_last (hd : le16 raw 10 = some d) : nextState maxpay .data (13 + d.toNat) raw = some .dck := by
  simp only [nextState, hd, if_true]
  exact if_neg (by omega)

theorem nextState_dck_first (hd : le16 raw 10 = some d) : nextState maxpay .dck (14 + d.toNat) raw = some .dck := by
  simp only [nextState, hd, if_true]

theorem nextState_dck_last (hd : le16 raw 10 = some d) : nextState maxpay .dck (15 + d.toNat) raw = some .done := by
  simp only [nextState, hd, if_true]
  exact if_neg (by omega)

theorem sizeAccepted_iff : sizeAccepted maxpay d = true ↔ 10 ≤ d.toNat ∧ d.toNat ≤ 10 + maxpay := by
  rw [sizeAccepted, Bool.and_eq_true, decide_eq_true_iff, decide_eq_true_iff]
  rfl

/-- S_DONE and S_FAULT have no row. -/
theorem open_of_nextState {st st' : RxState} (h : nextState maxpay st p raw = some st') : st ≠ .done ∧ st ≠ .fault := by
  constructor <;> rintro rfl <;> cases h

end

/-- RXB with room for its byte and a row of R95 (R94): the byte is consumed, and a refused data size faults with ERR_LEN. -/
theorem exec_rxb_of_nextState {s : State} {v : Byte} {st st' : RxState} {p : Nat} (hroom : s.raw.length < 26 + s.maxpay)
    (hst : s.rxst = st) (hp : s.raw.length = p) (hrow : nextState s.maxpay st p (s.raw ++ [v]) = some st') :
    exec (.rxb v) s = .next (if st' = .fault then faulted { s with raw := s.raw ++ [v], rxst := st' } 6
      else answered { s with raw := s.raw ++ [v], rxst := st' } (zext st'.code)) := by
  subst hst hp
  have hraw : memAppend (Config.maxFrame s.maxpay) s.raw [v] = some (s.raw ++ [v]) := memAppend_of_le hroom
  simp only [exec, execRxb, require_of (c := _ ∧ _) (open_of_nextState hrow), hraw, hrow, orFault_some]
  split <;> rfl

/-! ### Checks on a whole frame -/

section
variable {s : State} {k : Result}

theorem requireFrame_of (h : s.rxst = .done) : requireFrame s k = k := require_of h

theorem requireFrame_of_not (h : s.rxst ≠ .done) : requireFrame s k = .next (faulted s 5) := require_of_not h

end

/-- RXERR on an error response of `n` payload bytes: only their number is left to check. -/
theorem exec_rxerr_of_error {s : State} {n : Nat} (hpay : HoldsPayload s n) (h14 : s.raw[14]? = some 0x03#8) :
    exec .rxerr s = require s (2 ≤ n) .short
      (orFault (be16 s.raw 24) .outsideBuffer fun code => answer s (zext code)) := by
  obtain ⟨hdone, hn⟩ := holdsPayload_iff.mp hpay
  simp only [exec, execRxerr, requireFrame_of hdone, h14, hn, orFault_some]
  exact require_of trivial

/-! ### Tags, directions and widths -/

theorem decodable_iff {fmt : BitVec 4} : (FormatTag.ofCode fmt).decodable = true ↔ fmt.toNat ≤ 5 := by
  revert fmt
  decide

theorem codec_eq_none_iff {fmt : BitVec 4} : (FormatTag.ofCode fmt).codec = none ↔ 5 ≤ fmt.toNat := by
  revert fmt
  decide

/-- The tags of bool, short_enum and float (R63). -/
theorem tag_of_codec {fmt : BitVec 4} {c : Codec} (h : (FormatTag.ofCode fmt).codec = some c) :
    (c = .bool ↔ fmt = 0#4) ∧ (c = .shortEnum ↔ fmt = 1#4) ∧ (c = .float ↔ fmt = 4#4) := by
  revert fmt
  cases c <;> decide

theorem exists_direction {sflags : Byte} (h : sflags = 0x00#8 ∨ sflags = 0x02#8 ∨ sflags = 0x03#8) :
    ∃ dir, Direction.ofFlags sflags = some dir ∧ (dir = .request ↔ sflags = 0x00#8) := by
  obtain rfl | rfl | rfl := h
  · exact ⟨.request, rfl, by decide⟩
  · exact ⟨.response, rfl, by decide⟩
  · exact ⟨.response, rfl, by decide⟩

theorem direction_eq_none {sflags : Byte} (h0 : sflags ≠ 0x00#8) (h2 : sflags ≠ 0x02#8) (h3 : sflags ≠ 0x03#8) :
    Direction.ofFlags sflags = none := by
  rw [Direction.ofFlags, if_neg h0, if_neg (not_or.mpr ⟨h2, h3⟩)]

/-- The width of R98 as one chain of choices: the codecs of one width first, then the direction, then `rd`. -/
theorem frameWidth_eq (dir : Direction) (c : Codec) (rd : Bool) :
    frameWidth dir c rd = if c = .bool then 1 else if c = .shortEnum then 2 else if c = .float then 4
      else if dir = .request then 4 else if rd then 4 else 2 := by
  cases c <;> cases dir <;> rfl

/-- The codecs read at two bytes are the integers (R98, R108). -/
theorem decode_two_bytes {dir : Direction} {c : Codec} {rd : Bool} (h : frameWidth dir c rd = 2) (b0 b1 : Byte) :
    valueDecode c [b0, b1] = some (.ok (sext16 (b1 ++ b0))) ∧ c.valTag = .int := by
  cases c with
  | bool | float => cases h
  | shortEnum | longEnum | int32 => exact ⟨rfl, rfl⟩

/-- The codecs read at four bytes are the integers but short_enum, and float (R98, R108). -/
theorem decode_four_bytes {dir : Direction} {c : Codec} {rd : Bool} (h : frameWidth dir c rd = 4) (b0 b1 b2 b3 : Byte) :
    valueDecode c [b0, b1, b2, b3] = some (.ok (b3 ++ b2 ++ b1 ++ b0)) ∧
      c.valTag = if c = .float then .float else .int := by
  cases c with
  | bool | shortEnum => cases h
  | longEnum | int32 | float => exact ⟨rfl, rfl⟩

/-! ### The payload's bytes -/

theorem memRead_one {buf : Bytes} {addr : Nat} {b : Byte} (h : buf[addr]? = some b) : memRead buf addr 1 = some [b] := by
  obtain ⟨hlt, rfl⟩ := List.getElem?_eq_some_iff.mp h
  rw [memRead_of_le hlt, List.drop_eq_getElem_cons hlt]
  rfl

theorem memRead_succ {buf bytes : Bytes} {addr n : Nat} {b : Byte} (h : buf[addr]? = some b)
    (hrest : memRead buf (addr + 1) n = some bytes) : memRead buf addr (n + 1) = some (b :: bytes) := by
  obtain ⟨hlt, rfl⟩ := List.getElem?_eq_some_iff.mp h
  obtain ⟨hle, rfl⟩ := memRead_eq_some_iff.mp hrest
  rw [memRead_of_le (by omega), List.drop_eq_getElem_cons hlt, List.take_succ_cons]

/-! ### RXDEC on a whole frame -/

section
variable {s : State} {rd : Bool} {fmt : BitVec 4} {sflags : Byte} {dir : Direction} {n : Nat}

/-- RXDEC of a tag it decodes, on a whole frame with the service flags of a direction (R100): what its payload gives. -/
theorem exec_rxdec_of_frame (hfmt : fmt.toNat ≤ 5) (hpay : HoldsPayload s n) (h14 : s.raw[14]? = some sflags)
    (hdir : Direction.ofFlags sflags = some dir) :
    exec (.rxdec rd fmt) s = if n = 0 then decoded s .absent 0#32 else
      (FormatTag.ofCode fmt).codec.elim (decoded s .bstream (count (bsCount n))) fun c =>
        require s (frameWidth dir c rd ≤ n) .short <|
        orFault (memRead s.raw 24 (frameWidth dir c rd)) .outsideBuffer fun bytes =>
        orFault (valueDecode c bytes) .outsideBuffer fun r => orRaise s r (decoded s c.valTag) := by
  obtain ⟨hdone, hn⟩ := holdsPayload_iff.mp hpay
  simp only [exec, execRxdec, require_of (decodable_iff.mpr hfmt), requireFrame_of hdone, h14, hdir, hn, orFault_some]
  cases (FormatTag.ofCode fmt).codec <;> rfl

/-- A payload that holds the codec's width decodes as the codec says (R100). -/
theorem exec_rxdec_of_codec {c : Codec} {w : Nat} {bytes : Bytes} {r : Except FaultCode Word} (hfmt : fmt.toNat ≤ 5)
    (hpay : HoldsPayload s n) (h14 : s.raw[14]? = some sflags) (hdir : Direction.ofFlags sflags = some dir)
    (hc : (FormatTag.ofCode fmt).codec = some c) (hn : 0 < n) (hw : frameWidth dir c rd = w) (hle : w ≤ n)
    (hread : memRead s.raw 24 w = some bytes) (hr : valueDecode c bytes = some r) :
    exec (.rxdec rd fmt) s = orRaise s r (decoded s c.valTag) := by
  rw [exec_rxdec_of_frame hfmt hpay h14 hdir, if_neg (by omega), hc, Option.elim_some, hw, require_of hle, hread,
    orFault_some, hr, orFault_some]

end

/-! ### The obligations -/

/-- Settles O29: each clause is the row of R95 it names; S_DONE and S_FAULT fail RXB's first check. -/
theorem rxbFollowsTransitionTable : Obligations.RxbFollowsTransitionTable := by
  refine ⟨fun v => ?_, fun s v hroom => ⟨fun hst hp => ?_, fun hst hfirst hlast => ?_, fun d hst hp hd => ⟨fun hok => ?_,
    fun hbad => ?_⟩, fun hst hp => ?_, fun hst hp => ?_, fun d hd => ⟨fun hst hfirst hlast => ?_, fun hst hp => ?_,
    fun hst hp => ?_, fun hst hp => ?_⟩⟩, fun s v hst => ?_, refusesWords_of_format (.rxb 0#8)⟩
  · rw [← encode_rxb, decodeReadsBackEncode]
  · exact exec_rxb_of_nextState hroom hst hp nextState_sof
  · exact exec_rxb_of_nextState hroom hst rfl (nextState_hdr hfirst hlast)
  · refine exec_rxb_of_nextState (st' := .hck) hroom hst hp ?_
    rw [nextState_hdr_size hd, if_pos (sizeAccepted_iff.mpr hok)]
  · refine exec_rxb_of_nextState (st' := .fault) hroom hst hp ?_
    rw [nextState_hdr_size hd, if_neg (by rw [sizeAccepted_iff]; omega)]
  · exact exec_rxb_of_nextState hroom hst hp nextState_hck_first
  · exact exec_rxb_of_nextState hroom hst hp nextState_hck_last
  · exact exec_rxb_of_nextState hroom hst rfl (nextState_data (le16_append hd) hfirst hlast)
  · exact exec_rxb_of_nextState hroom hst hp (nextState_data_last (le16_append hd))
  · exact exec_rxb_of_nextState hroom hst hp (nextState_dck_first (le16_append hd))
  · exact exec_rxb_of_nextState hroom hst hp (nextState_dck_last (le16_append hd))
  · have hclosed : ¬ (s.rxst ≠ .done ∧ s.rxst ≠ .fault) := fun ⟨hdone, hfault⟩ => hst.elim hdone hfault
    exact require_of_not hclosed

/-- Settles O30: each clause passes the checks before its own and fails its own. -/
theorem rxdecChecksInOrder : Obligations.RxdecChecksInOrder := by
  refine ⟨fun rd fmt => ?_, fun s rd fmt hfmt => ?_, fun s rd fmt hfmt hdone => ?_,
    fun s rd fmt sflags hfmt hdone h14 h0 h2 h3 => ?_, refusesWords_of_format (.rxdec false 0#4)⟩
  · rw [← encode_rxdec, decodeReadsBackEncode]
  · exact require_of_not (by rw [decodable_iff]; omega)
  · simp only [exec, execRxdec, require_of (decodable_iff.mpr hfmt), requireFrame_of_not hdone]
  · simp only [exec, execRxdec, require_of (decodable_iff.mpr hfmt), requireFrame_of hdone, h14, orFault_some,
      direction_eq_none h0 h2 h3, raiseFault_eq, raise_eq_faulted, FaultCode.number]

/-- Settles O31: the empty payload and the byte-stream have no width; a fixed-width codec is read at the width of R98. -/
theorem rxdecDecodesPayload : Obligations.RxdecDecodesPayload := by
  intro s rd fmt sflags n w hfmt hpay h14 hflags hw
  obtain ⟨dir, hdir, hrequest⟩ := exists_direction hflags
  have hframe := exec_rxdec_of_frame (rd := rd) hfmt hpay h14 hdir
  have hcodec (hfixed : fmt ≠ 5#4) : ∃ c, (FormatTag.ofCode fmt).codec = some c ∧ frameWidth dir c rd = w := by
    obtain ⟨c, hc⟩ := Option.ne_none_iff_exists'.mp (mt codec_eq_none_iff.mp fun h5 =>
      hfixed (BitVec.eq_of_toNat_eq (Nat.le_antisymm hfmt h5)))
    obtain ⟨hbool, hshort, hfloat⟩ := tag_of_codec hc
    exact ⟨c, hc, by simp only [hw, frameWidth_eq, hbool, hshort, hfloat, hrequest]⟩
  refine ⟨fun hn => ?_, fun hn h5 => ?_, fun hn hlt hfixed => ?_, fun b0 hn hbool hb0 => ?_, fun h hw2 hle hfixed hh => ?_,
    fun v hw4 hle hfixed hv => ?_⟩
  · rw [hframe, if_pos hn]
    rfl
  · subst h5
    rw [hframe, if_neg (by omega), show (FormatTag.ofCode 5#4).codec = none from rfl]
    rfl
  · obtain ⟨c, hc, rfl⟩ := hcodec hfixed
    rw [hframe, if_neg (by omega), hc, Option.elim_some, require_of_not (by omega), raise_eq_faulted]
    rfl
  · subst hbool
    rw [exec_rxdec_of_codec hfmt hpay h14 hdir rfl hn rfl hn (memRead_one hb0) rfl]
    by_cases h0 : b0 = 0x00#8
    · subst h0
      rfl
    by_cases h1 : b0 = 0x01#8
    · subst h1
      rfl
    rw [if_neg h0, if_neg h1, if_neg (not_or.mpr ⟨h0, h1⟩)]
    rfl
  · subst hw2
    obtain ⟨c, hc, hwidth⟩ := hcodec hfixed
    obtain ⟨b0, b1, h0, h1, rfl⟩ := le16_eq_some_iff.mp hh
    obtain ⟨hdec, htag⟩ := decode_two_bytes hwidth b0 b1
    rw [exec_rxdec_of_codec hfmt hpay h14 hdir hc (by omega) hwidth hle (memRead_succ h0 (memRead_one h1)) hdec, htag]
    rfl
  · subst hw4
    obtain ⟨c, hc, hwidth⟩ := hcodec hfixed
    obtain ⟨b0, b1, b2, b3, h0, h1, h2, h3, rfl⟩ := le32_eq_some_iff.mp hv
    obtain ⟨hdec, htag⟩ := decode_four_bytes hwidth b0 b1 b2 b3
    obtain ⟨-, -, hfloat⟩ := tag_of_codec hc
    rw [exec_rxdec_of_codec hfmt hpay h14 hdir hc (by omega) hwidth hle
      (memRead_succ h0 (memRead_succ h1 (memRead_succ h2 (memRead_one h3)))) hdec, htag]
    simp only [hfloat]
    rfl

/-- Settles O32: each clause passes the checks before its own; the code is two bytes, high one first (R40). -/
theorem rxerrReturnsErrorCode : Obligations.RxerrReturnsErrorCode := by
  refine ⟨decodeReadsBackEncode .rxerr, fun s => requireFrame_of_not, fun s sflags hdone h14 hflags => ?_,
    fun s n hpay h14 hn => ?_, fun s n b0 b1 hpay h14 hn h0 h1 => ?_, refusesWords_of_format .rxerr⟩
  · simp only [exec, execRxerr, requireFrame_of hdone, h14, orFault_some, require_of_not hflags, raise_eq_faulted,
      FaultCode.number]
  · rw [exec_rxerr_of_error hpay h14]
    exact require_of_not (by omega)
  · rw [exec_rxerr_of_error hpay h14, require_of hn, be16_eq_some_iff.mpr ⟨b0, b1, h0, h1, rfl⟩, orFault_some,
      ← zext_accWord (b0, b1)]
    rfl

/-- Settles O33: RXRAW is a load by index from RAW. -/
theorem rxrawReadsReceivedBytes : Obligations.RxrawReadsReceivedBytes := by
  refine ⟨fun i => ?_, fun s i v => loadByte_of_some, fun s i => loadByte_of_length_le, refusesWords_of_format (.rxraw 0#16)⟩
  rw [← encode_rxraw, decodeReadsBackEncode]

/-- Settles O28: RXRST has no check. -/
theorem rxrstStartsFrame : Obligations.RxrstStartsFrame :=
  ⟨decodeReadsBackEncode .rxrst, fun _ => rfl, refusesWords_of_format .rxrst⟩

end Sys2Proof.Proofs

/-! The statements of 43_value_codec.md. Every encoding is the low bytes of the value, as many as the codec is wide, of the values
the codec has an encoding for (`valueEncode_eq_ok_iff`), and decoding these bytes gives the value back (`valueDecode_bytesLe`).
Both round trips of R110 are this one fact: bytes packed into a word are its low bytes again (`sum_bytesLe`,
`bytesLe_of_toNat_eq_mod`), and a request is read at the encode width whatever `rd` (`exec_rxdec_of_value_frame`). -/

namespace Sys2Proof.Proofs

open Sys2Proof Sys2Proof.Machine

/-! ### Words with a tag and a value -/

/-- A format FI word: the tag or-ed into `sub`, the value into `imm` (R57). -/
theorem cmdWord_or_tag_value (op : BitVec 8) (fmt : BitVec 4) (v : Word) :
    cmdWord op (0#4 ++ fmt) v = cmdWord op 0#8 0#32 ||| (fmt.setWidth 48 <<< 32) ||| v.setWidth 48 := by
  have htag : fmt.setWidth 48 <<< 32 = cmdWord 0#8 (0#4 ++ fmt) 0#32 := by
    revert fmt
    decide
  rw [htag, cmdWord_or, BitVec.or_zero, BitVec.zero_or, BitVec.or_zero, cmdWord_or_operand (Nat.le_refl 32), BitVec.setWidth_eq]

/-- The word of VENC as R107 writes it. -/
theorem encode_venc (fmt : BitVec 4) (v : Word) :
    encode (.venc fmt v) = 0x400000000000#48 ||| (fmt.setWidth 48 <<< 32) ||| v.setWidth 48 :=
  cmdWord_or_tag_value 0x40#8 fmt v

/-- The word of VDEC as R109 writes it. -/
theorem encode_vdec (fmt : BitVec 4) (v : Word) :
    encode (.vdec fmt v) = 0x410000000000#48 ||| (fmt.setWidth 48 <<< 32) ||| v.setWidth 48 :=
  cmdWord_or_tag_value 0x41#8 fmt v

/-! ### The low bytes of a word -/

theorem low16_eq_setWidth (v : Word) : low16 v = v.setWidth 16 := (BitVec.setWidth_eq_extractLsb' (by decide)).symm

theorem append_low_bytes (v : Word) : v.extractLsb' 8 8 ++ v.extractLsb' 0 8 = low16 v :=
  BitVec.extractLsb'_append_extractLsb'_eq_extractLsb' rfl

/-- A halfword cut from a word has the word's two low bytes. -/
theorem bytesLe_low16 (v : Word) : bytesLe (low16 v) 2 = bytesLe v 2 := by
  rw [bytesLe_half, ← append_low_bytes, byte_low_of_append, byte_high_of_append]
  rfl

/-- One byte more of a little-endian sequence is the next byte up. -/
theorem bytesLe_succ {w : Nat} (v : BitVec w) (n : Nat) : bytesLe v (n + 1) = bytesLe v n ++ [v.extractLsb' (8 * n) 8] := by
  rw [bytesLe, List.range_succ, List.map_append]
  rfl

/-- The number of a little-endian sequence (R9). -/
theorem sum_bytesLe (v : Word) (n : Nat) :
    ((bytesLe v n).zipIdx.map fun p => p.1.toNat * 256 ^ p.2).sum = v.toNat % 256 ^ n := by
  induction n with
  | zero => exact (Nat.mod_one _).symm
  | succ n ih =>
    have hbyte : (v.extractLsb' (8 * n) 8).toNat = v.toNat / 256 ^ n % 256 := by
      rw [BitVec.extractLsb'_toNat, Nat.shiftRight_eq_div_pow, Nat.pow_mul]
    rw [bytesLe_succ, List.zipIdx_append, List.map_append, List.sum_append, ih, Nat.mod_pow_succ, bytesLe_length, ← hbyte]
    simp only [List.zipIdx_singleton, List.map_singleton, List.sum_singleton, Nat.zero_add, Nat.mul_comm]

/-- The low bytes of a word depend on no more than the number they make. -/
theorem bytesLe_of_toNat_eq_mod {u v : Word} {n : Nat} (h : u.toNat = v.toNat % 256 ^ n) : bytesLe u n = bytesLe v n := by
  refine List.map_congr_left fun k hk => BitVec.eq_of_getLsbD_eq fun i hi => ?_
  have hbit : 8 * k + i < 8 * n := by
    have hkn := List.mem_range.mp hk
    omega
  have hpow : 256 ^ n = 2 ^ (8 * n) := (Nat.pow_mul 2 8 n).symm
  rw [BitVec.getLsbD_extractLsb', BitVec.getLsbD_extractLsb', BitVec.getLsbD, h, hpow, Nat.testBit_mod_two_pow,
    decide_eq_true hbit, Bool.true_and, BitVec.getLsbD]

/-! ### What a codec encodes -/

/-- The values a codec has an encoding for (R106). -/
def Encodable : Codec → Word → Prop
  | .bool, v => v = 0#32 ∨ v = 1#32
  | .shortEnum, v => -32768 ≤ v.toInt ∧ v.toInt ≤ 32767
  | .longEnum, _ | .int32, _ | .float, _ => True

theorem fitsSigned16_iff {v : Word} : fitsSigned16 v = true ↔ -32768 ≤ v.toInt ∧ v.toInt ≤ 32767 := by
  rw [fitsSigned16, Bool.and_eq_true, decide_eq_true_iff, decide_eq_true_iff]

/-- Every encoding is the low bytes of the value, as many as the codec is wide (R105, R106). -/
theorem valueEncode_of_encodable {c : Codec} {v : Word} (h : Encodable c v) : valueEncode c v = .ok (bytesLe v c.width) := by
  cases c with
  | bool => exact if_pos h
  | shortEnum => rw [valueEncode, if_pos (fitsSigned16_iff.mpr h), bytesLe_low16]; rfl
  | longEnum | int32 | float => rfl

theorem valueEncode_of_not_encodable {c : Codec} {v : Word} (h : ¬ Encodable c v) : valueEncode c v = .error .range := by
  cases c with
  | bool => exact if_neg h
  | shortEnum => exact if_neg (mt fitsSigned16_iff.mp h)
  | longEnum | int32 | float => exact absurd trivial h

theorem valueEncode_eq_ok_iff {c : Codec} {v : Word} {bytes : Bytes} :
    valueEncode c v = .ok bytes ↔ Encodable c v ∧ bytes = bytesLe v c.width := by
  by_cases h : Encodable c v
  · rw [valueEncode_of_encodable h, Except.ok.injEq, and_iff_right h, eq_comm]
  · rw [valueEncode_of_not_encodable h]
    exact iff_of_false nofun fun ⟨hv, _⟩ => h hv

/-! ### What a codec decodes at its encode width -/

/-- A signed 16-bit number is its low halfword, sign-extended. -/
theorem sext16_low16 {v : Word} (h : -32768 ≤ v.toInt ∧ v.toInt ≤ 32767) : sext16 (low16 v) = v := by
  have hlow : (low16 v).toInt = v.toInt := by
    rw [low16_eq_setWidth, BitVec.toInt_setWidth, ← Int.bmod_bmod_of_dvd (m := 2 ^ 32) (by decide),
      ← BitVec.toInt_eq_toNat_bmod]
    exact Int.bmod_eq_of_le_mul_two (by omega) (by omega)
  rw [sext16, BitVec.signExtend, hlow, BitVec.ofInt_toInt]

theorem valueDecode_shortEnum (v : Word) : valueDecode .shortEnum (bytesLe v 2) = some (.ok (sext16 (low16 v))) := by
  rw [← append_low_bytes]
  rfl

theorem valueDecode_of_width_four {c : Codec} (hc : c.width = 4) (v : Word) : valueDecode c (bytesLe v 4) = some (.ok v) := by
  have hword := congrArg (fun w => some (Except.ok (ε := FaultCode) w)) (append_bytes_of_word v)
  cases c with
  | bool | shortEnum => cases hc
  | longEnum | int32 | float => exact hword

/-- Decoding undoes encoding (R110). -/
theorem valueDecode_bytesLe {c : Codec} {v : Word} (h : Encodable c v) : valueDecode c (bytesLe v c.width) = some (.ok v) := by
  cases c with
  | bool => obtain rfl | rfl := h <;> rfl
  | shortEnum => exact (valueDecode_shortEnum v).trans (by rw [sext16_low16 h])
  | longEnum | int32 | float => exact valueDecode_of_width_four rfl v

/-- A byte that is no bool (R108). -/
theorem valueDecode_bool_of_byte {v : Word} (hbyte : v.toNat < 256) (h : ¬ Encodable .bool v) :
    valueDecode .bool (bytesLe v 1) = some (.error .value) := by
  have hv : v = 0#24 ++ v.extractLsb' 0 8 := (zero_append_low (m := 24) (n := 8) hbyte).symm
  have h0 : v.extractLsb' 0 8 ≠ 0x00#8 := fun h0 => h (.inl (by rw [hv, h0]; rfl))
  have h1 : v.extractLsb' 0 8 ≠ 0x01#8 := fun h1 => h (.inr (by rw [hv, h1]; rfl))
  rw [bytesLe_byte, valueDecode, if_neg h0, if_neg h1]

/-! ### VENC and VDEC of a codec -/

theorem exists_codec {fmt : BitVec 4} (h : fmt.toNat ≤ 4) : ∃ c, (FormatTag.ofCode fmt).codec = some c :=
  Option.ne_none_iff_exists'.mp (mt codec_eq_none_iff.mp (by omega))

theorem codec_width_le (c : Codec) : c.width ≤ 4 := by
  cases c <;> decide

section
variable {s : State} {fmt : BitVec 4} {c : Codec} {v : Word}

theorem exec_venc_of_codec (hc : (FormatTag.ofCode fmt).codec = some c) :
    exec (.venc fmt v) s = require s (s.txpk = .empty) .state (orRaise s (valueEncode c v) fun bytes =>
      orFault (memAppend s.maxpay [] bytes) .outsideBuffer fun pay => answer (s.setPay pay .value) (count bytes.length)) := by
  simp only [exec, execVenc, hc]

theorem exec_vdec_of_codec (hc : (FormatTag.ofCode fmt).codec = some c) :
    exec (.vdec fmt v) s = require s (v >>> (8 * c.width) = 0#32) .range
      (orFault (valueDecode c (bytesLe v c.width)) .outsideBuffer fun r => orRaise s r (answer s)) := by
  simp only [exec, execVdec, hc]

theorem exec_venc_of_no_codec (hfmt : 5 ≤ fmt.toNat) : exec (.venc fmt v) s = .next (faulted s 2) := by
  simp only [exec, execVenc, codec_eq_none_iff.mpr hfmt, raiseFault_eq, raise_eq_faulted, FaultCode.number]

theorem exec_vdec_of_no_codec (hfmt : 5 ≤ fmt.toNat) : exec (.vdec fmt v) s = .next (faulted s 2) := by
  simp only [exec, execVdec, codec_eq_none_iff.mpr hfmt, raiseFault_eq, raise_eq_faulted, FaultCode.number]

/-- VENC of a value the codec has an encoding for (R107). -/
theorem exec_venc_of_encodable (hc : (FormatTag.ofCode fmt).codec = some c) (hkind : s.txpk = .empty) (hroom : 8 ≤ s.maxpay)
    (h : Encodable c v) : exec (.venc fmt v) s =
      .next (answered { s with txpay := bytesLe v c.width, txpk := .value } (BitVec.ofNat 32 c.width)) := by
  have hfits : ([] : Bytes).length + (bytesLe v c.width).length ≤ s.maxpay := by
    have := codec_width_le c
    simp only [List.length_nil, bytesLe_length]
    omega
  rw [exec_venc_of_codec hc, require_of hkind, valueEncode_of_encodable h, orRaise_ok, memAppend_of_le hfits, orFault_some,
    bytesLe_length]
  rfl

theorem exec_venc_of_not_encodable (hc : (FormatTag.ofCode fmt).codec = some c) (hkind : s.txpk = .empty)
    (h : ¬ Encodable c v) : exec (.venc fmt v) s = .next (faulted s 3) := by
  rw [exec_venc_of_codec hc, require_of hkind, valueEncode_of_not_encodable h, orRaise_error, raise_eq_faulted]
  rfl

theorem require_succeeded {t : State} {p : Prop} [Decidable p] {code : FaultCode} {k : Result}
    (h : require s p code k = .next t) (hsucceeded : Succeeded t) : p ∧ k = .next t := by
  obtain hpass | ⟨-, rfl⟩ := require_next h
  · exact hpass
  · exact absurd hsucceeded (raise_not_succeeded s code)

theorem orRaise_succeeded {α : Type} {t : State} {r : Except FaultCode α} {k : α → Result} (h : orRaise s r k = .next t)
    (hsucceeded : Succeeded t) : ∃ x, r = .ok x ∧ k x = .next t := by
  obtain hpass | ⟨e, -, rfl⟩ := orRaise_next h
  · exact hpass
  · exact absurd hsucceeded (raise_not_succeeded s e)

/-- A VENC that succeeds had an encodable value, whose encoding is TXPAY. -/
theorem venc_succeeded {t : State} (hexec : exec (.venc fmt v) s = .next t) (hsucceeded : Succeeded t) :
    ∃ c, (FormatTag.ofCode fmt).codec = some c ∧ Encodable c v ∧ t.txpay = bytesLe v c.width ∧ t.txpk = .value := by
  obtain h5 | h4 := Nat.lt_or_ge 4 fmt.toNat
  · obtain rfl := Host.Outcome.next.inj ((exec_venc_of_no_codec h5).symm.trans hexec)
    exact absurd hsucceeded (raise_not_succeeded s .fmt)
  obtain ⟨c, hc⟩ := exists_codec h4
  rw [exec_venc_of_codec hc] at hexec
  obtain ⟨-, hexec⟩ := require_succeeded hexec hsucceeded
  obtain ⟨bytes, hbytes, hexec⟩ := orRaise_succeeded hexec hsucceeded
  obtain ⟨pay, hpay, hexec⟩ := orFault_next hexec
  obtain ⟨-, rfl⟩ := memAppend_eq_some_iff.mp hpay
  obtain ⟨hv, rfl⟩ := valueEncode_eq_ok_iff.mp hbytes
  cases hexec
  exact ⟨c, hc, hv, rfl, rfl⟩

/-- The range check of VDEC: no byte beyond the encode width (R109). -/
theorem shiftRight_width_eq_zero_iff : v >>> (8 * c.width) = 0#32 ↔ v.toNat < 256 ^ c.width := by
  rw [← BitVec.toNat_inj, BitVec.toNat_ushiftRight, Nat.shiftRight_eq_div_pow, Nat.pow_mul, BitVec.toNat_ofNat, Nat.zero_mod,
    Nat.div_eq_zero_iff_lt (by positivity)]

/-- VDEC of bytes within the encode width answers as the codec decodes them (R109). -/
theorem exec_vdec_of_lt {r : Except FaultCode Word} (hc : (FormatTag.ofCode fmt).codec = some c) (hv : v.toNat < 256 ^ c.width)
    (hr : valueDecode c (bytesLe v c.width) = some r) : exec (.vdec fmt v) s = orRaise s r (answer s) := by
  rw [exec_vdec_of_codec hc, require_of (shiftRight_width_eq_zero_iff.mpr hv), hr, orFault_some]

theorem exec_vdec_of_le (hc : (FormatTag.ofCode fmt).codec = some c) (hv : 256 ^ c.width ≤ v.toNat) :
    exec (.vdec fmt v) s = .next (faulted s 3) := by
  rw [exec_vdec_of_codec hc, require_of_not (mt shiftRight_width_eq_zero_iff.mp hv.not_gt), raise_eq_faulted]
  rfl

end

/-! ### RXDEC of a write request -/

/-- RXDEC at the codec of the value a request was built with: a request is read at the encode width whatever `rd` (R98). -/
theorem exec_rxdec_of_value_frame {s : State} {rd : Bool} {fmt : BitVec 4} {c : Codec} {v : Word} {sid : Byte} {src dst : Word}
    {otype : Half} {oid : Word} {pid : Half} (hc : (FormatTag.ofCode fmt).codec = some c) (h : Encodable c v)
    (hdone : s.rxst = .done) (hraw : s.raw = frame sid src dst otype oid pid (bytesLe v c.width)) :
    exec (.rxdec rd fmt) s = decoded s c.valTag v := by
  have hwidth : frameWidth .request c rd = c.width := by cases c <;> rfl
  have hpos : 0 < c.width := by cases c <;> decide
  have hle := codec_width_le c
  have hfmt : fmt.toNat < 5 := Nat.not_le.mp fun h5 => by simp [codec_eq_none_iff.mpr h5] at hc
  have hpay : HoldsPayload s c.width := by
    refine ⟨hdone, _, hraw ▸ frame_dataSize .., ?_⟩
    rw [BitVec.toNat_ofNat, bytesLe_length]
    omega
  have hread : memRead s.raw 24 c.width = some (bytesLe v c.width) := by
    rw [memRead_of_le (by rw [hraw, frame_length, bytesLe_length]; omega), hraw]
    exact congrArg some (List.take_left' (bytesLe_length v c.width))
  exact exec_rxdec_of_codec (sflags := 0x00#8) hfmt.le hpay (hraw ▸ rfl) rfl hc hpos hwidth le_rfl hread (valueDecode_bytesLe h)

/-! ### The obligations -/

/-- Settles O34: VENC's checks in the order of R107, the last of them the codec's own. -/
theorem vencEncodesValue : Obligations.VencEncodesValue := by
  refine ⟨fun fmt v => ?_, fun s fmt v => exec_venc_of_no_codec, fun s fmt v hfmt hkind => ?_,
    fun s v hkind hroom => ⟨?_, ?_, fun fmt hfmt => ?_⟩, refusesWords_of_format (.venc 0#4 0#32)⟩
  · rw [← encode_venc, decodeReadsBackEncode]
  · obtain ⟨c, hc⟩ := exists_codec hfmt
    rw [exec_venc_of_codec hc, require_of_not hkind, raise_eq_faulted]
    rfl
  · split
    case isTrue hv => exact exec_venc_of_encodable (c := .bool) rfl hkind hroom hv
    case isFalse hv => exact exec_venc_of_not_encodable (c := .bool) rfl hkind hv
  · split
    case isTrue hv => exact exec_venc_of_encodable (c := .shortEnum) rfl hkind hroom hv
    case isFalse hv => exact exec_venc_of_not_encodable (c := .shortEnum) rfl hkind hv
  · obtain rfl | rfl | rfl := hfmt
    · exact exec_venc_of_encodable (c := .longEnum) rfl hkind hroom trivial
    · exact exec_venc_of_encodable (c := .int32) rfl hkind hroom trivial
    · exact exec_venc_of_encodable (c := .float) rfl hkind hroom trivial

/-- Settles O35: the range check leaves one byte of a bool, two of a short_enum, and every word of the other codecs. -/
theorem vdecDecodesOperand : Obligations.VdecDecodesOperand := by
  refine ⟨fun fmt v => ?_, fun s fmt v => exec_vdec_of_no_codec, fun s v => ⟨?_, ?_, fun fmt hfmt => ?_⟩,
    refusesWords_of_format (.vdec 0#4 0#32)⟩
  · rw [← encode_vdec, decodeReadsBackEncode]
  · split_ifs with hwide hv
    · exact exec_vdec_of_le (c := .bool) rfl hwide
    · exact exec_vdec_of_lt (c := .bool) rfl (Nat.not_le.mp hwide) (valueDecode_bytesLe hv)
    · exact exec_vdec_of_lt (c := .bool) rfl (Nat.not_le.mp hwide) (valueDecode_bool_of_byte (Nat.not_le.mp hwide) hv)
  · split_ifs with hwide
    · exact exec_vdec_of_le (c := .shortEnum) rfl hwide
    · rw [exec_vdec_of_lt (c := .shortEnum) rfl (Nat.not_le.mp hwide) (valueDecode_shortEnum v), low16_eq_setWidth]
      rfl
  · obtain rfl | rfl | rfl := hfmt
    · exact exec_vdec_of_lt (c := .longEnum) rfl v.isLt (valueDecode_bytesLe trivial)
    · exact exec_vdec_of_lt (c := .int32) rfl v.isLt (valueDecode_bytesLe trivial)
    · exact exec_vdec_of_lt (c := .float) rfl v.isLt (valueDecode_bytesLe trivial)

/-- Settles O36: the packed bytes are the value's low bytes again, which lie within the encode width. -/
theorem valueRoundTripsThroughVdec : Obligations.ValueRoundTripsThroughVdec := by
  intro s t u fmt v packed hexec hsucceeded hpacked
  obtain ⟨c, hc, hv, hpay, -⟩ := venc_succeeded hexec hsucceeded
  rw [hpay, sum_bytesLe] at hpacked
  have hlt : packed.toNat < 256 ^ c.width := hpacked ▸ Nat.mod_lt _ (by positivity)
  have hdecode : valueDecode c (bytesLe packed c.width) = some (.ok v) := by
    rw [bytesLe_of_toNat_eq_mod hpacked, valueDecode_bytesLe hv]
  exact exec_vdec_of_lt hc hlt hdecode

/-- Settles O37: BLDWR frames the encoding, the parser takes the frame to S_DONE, and RXDEC reads the encoding back. -/
theorem valueRoundTripsThroughFrame : Obligations.ValueRoundTripsThroughFrame := by
  intro s t fmt v rd hinv hexec hsucceeded
  obtain ⟨c, hc, hv, hpay, hkind⟩ := venc_succeeded hexec hsucceeded
  have hinvt := exec_inv hexec hinv
  obtain ⟨hfits, -, -⟩ := hinvt.lengths
  obtain ⟨a1, b1, -, hbuild⟩ := build_answers 0x02#8 hfits
  rw [← exec_bldwr_of_kind hkind] at hbuild
  have hdone := parserState_frame (sid := 0x02#8) (src := t.tsrc) (dst := t.tdst) (otype := t.totype) (oid := t.toid)
    (pid := t.tpid) hinvt.config.2 hfits
  obtain ⟨u, hrun, -, hdoneu, hraw⟩ := runAll_rxrst_rxbs_of_done (exec_inv hbuild hinvt) hdone
  rw [hpay] at hraw
  exact ⟨_, u, _, hbuild, hrun, exec_rxdec_of_value_frame hc hv hdoneu hraw, respond_succeeded _ _, rfl⟩

end Sys2Proof.Proofs

/-! The statements of 44_multi_info.md. What MIADD does is said check by check, in the order of R113 (`exec_miadd_of_not_kind`,
`exec_miadd_of_full`, `exec_miadd_of_room`), and a fault with ERR_LEN or ERR_ASM can then only be an abort
(`aborted_of_faultedWith`). A run of MIADDs that pass all their checks is an induction on the groups (`runAll_miadds`), and BLDRD
frames what it leaves in TXPAY. -/

namespace Sys2Proof.Proofs

open Sys2Proof Sys2Proof.Machine

/-! ### Words of the two commands -/

/-- The word of ASMCLS as R115 writes it. -/
theorem encode_asmcls (id : Byte) : encode (.asmcls id) = 0x510000000000#48 ||| id.setWidth 48 :=
  encode_of_operand (op := 0x51#8) (by decide) rfl rfl (zext_byte id).symm

/-- A format M word: the id or-ed in above the reference (R57). -/
theorem cmdWord_or_group (op : BitVec 8) (id : Byte) (ref : Half) :
    cmdWord op 0#8 (0#8 ++ id ++ ref) = cmdWord op 0#8 0#32 ||| (id.setWidth 48 <<< 16) ||| ref.setWidth 48 := by
  have hid : id.setWidth 48 <<< 16 = cmdWord 0#8 0#8 (0#8 ++ id ++ 0#16) := by
    revert id
    decide
  have hbits : ref.setWidth 32 ||| (0#8 ++ id ++ 0#16) = 0#8 ++ id ++ ref := by
    rw [BitVec.setWidth_eq_append (by decide)]
    exact BitVec.or_append.trans (congrArg₂ (· ++ ·) BitVec.zero_or BitVec.or_zero)
  rw [BitVec.or_assoc, BitVec.or_comm (id.setWidth 48 <<< 16), ← BitVec.or_assoc, cmdWord_or_operand (by decide), hid, cmdWord_or,
    BitVec.or_zero, BitVec.or_zero, hbits]

/-- The word of MIADD as R113 writes it. -/
theorem encode_miadd (id : Byte) (ref : Half) :
    encode (.miadd id ref) = 0x500000000000#48 ||| (id.setWidth 48 <<< 16) ||| ref.setWidth 48 :=
  cmdWord_or_group 0x50#8 id ref

/-! ### Assembly ids -/

/-- `asmvalid` names the ids of R71. -/
theorem asmValid_iff {id : Byte} : asmValid id = true ↔ id.toNat ≤ 15 ∨ id.toNat = 253 ∨ id.toNat = 254 := by
  unfold asmValid asmClass
  split_ifs <;> simp <;> omega

theorem asmClass_code_toNat (id : Byte) : (asmClass id).code.toNat =
    if id.toNat = 0 then 0 else if id.toNat ≤ 15 then 1 else if id.toNat = 253 then 2 else if id.toNat = 254 then 3 else 7 := by
  unfold asmClass
  split_ifs <;> rfl

/-- The class stands two bytes above the id (R71). -/
theorem asmWord_eq_ofNat (id : Byte) : asmWord id = BitVec.ofNat 32 ((asmClass id).code.toNat * 65536 + id.toNat) := by
  have hclass : (0#13 ++ (asmClass id).code).toNat = (asmClass id).code.toNat := by
    cases asmClass id <;> rfl
  have hnumber : (asmWord id).toNat = (asmClass id).code.toNat * 65536 + id.toNat := by
    rw [asmWord, toNat_append_byte, toNat_append_byte, hclass, BitVec.toNat_ofNat]
    omega
  rw [← hnumber, BitVec.ofNat_toNat, BitVec.setWidth_eq]

/-! ### MIADD, check by check -/

theorem miGroup_length (ref : Half) (id : Byte) : (miGroup ref id).length = 3 := rfl

section
variable {s t : State} {id : Byte} {ref : Half}

theorem exec_miadd_of_not_kind (h : ¬ (s.txpk = .empty ∨ s.txpk = .minfo)) :
    exec (.miadd id ref) s = .next (faulted s 5) :=
  require_of_not h

/-- No room for a group (R113). -/
theorem exec_miadd_of_full (hkind : s.txpk = .empty ∨ s.txpk = .minfo) (hfull : s.maxpay < s.txpay.length + 3) :
    exec (.miadd id ref) s = .next (faulted (s.setPay [] .abort) 6) := by
  have hnone : memAppend s.maxpay s.txpay (miGroup ref id) = none :=
    memAppend_of_lt (by rwa [miGroup_length])
  simp only [exec, execMiadd, require_of (c := _ ∨ _) hkind, hnone, abortRequest, raiseFault_eq, raise_eq_faulted, FaultCode.number]

/-- Room for a group (R113): the id decides. -/
theorem exec_miadd_of_room (hkind : s.txpk = .empty ∨ s.txpk = .minfo) (hroom : s.txpay.length + 3 ≤ s.maxpay) :
    exec (.miadd id ref) s = .next (if asmValid id = true
      then answered (s.setPay (s.txpay ++ miGroup ref id) .minfo) (BitVec.ofNat 32 (s.txpay.length + 3))
      else faulted (s.setPay [] .abort) 8) := by
  have hsome : memAppend s.maxpay s.txpay (miGroup ref id) = some (s.txpay ++ miGroup ref id) :=
    memAppend_of_le (by rwa [miGroup_length])
  simp only [exec, execMiadd, require_of (c := _ ∨ _) hkind, hsome, abortRequest, answer_eq, raiseFault_eq, raise_eq_faulted,
    FaultCode.number, respond_eq_answered, count, List.length_append, miGroup_length, apply_ite Host.Outcome.next]

/-- A MIADD that faults with ERR_LEN or ERR_ASM has aborted the request (R113). -/
theorem aborted_of_faultedWith (hexec : exec (.miadd id ref) s = .next t) (hfault : FaultedWith t 6 ∨ FaultedWith t 8) :
    ∃ c, t = faulted (s.setPay [] .abort) c := by
  by_cases hkind : s.txpk = .empty ∨ s.txpk = .minfo
  case neg =>
    obtain rfl := Host.Outcome.next.inj ((exec_miadd_of_not_kind hkind).symm.trans hexec)
    simp [FaultedWith, faulted] at hfault
  obtain hfull | hroom := Nat.lt_or_ge s.maxpay (s.txpay.length + 3)
  · exact ⟨6, Host.Outcome.next.inj (hexec.symm.trans (exec_miadd_of_full hkind hfull))⟩
  rw [exec_miadd_of_room hkind hroom] at hexec
  split at hexec
  · cases hexec
    simp [FaultedWith, answered] at hfault
  · exact ⟨8, (Host.Outcome.next.inj hexec).symm⟩

end

/-! ### A run of MIADDs -/

/-- The payload of a multi-info request: its groups in order (R116). -/
def groupBytes (groups : List (Byte × Half)) : Bytes := groups.flatMap fun g => miGroup g.2 g.1

theorem groupBytes_cons (g : Byte × Half) (groups : List (Byte × Half)) :
    groupBytes (g :: groups) = miGroup g.2 g.1 ++ groupBytes groups := rfl

theorem groupBytes_length (groups : List (Byte × Half)) : (groupBytes groups).length = 3 * groups.length := by
  induction groups with
  | nil => rfl
  | cons g groups ih =>
    rw [groupBytes_cons, List.length_append, ih, miGroup_length, List.length_cons]
    omega

/-- MIADDs of valid groups that fit all pass, and TXPAY grows by the groups in order (R113, R116). -/
theorem runAll_miadds {s : State} {groups : List (Byte × Half)} (hkind : s.txpk = .empty ∨ s.txpk = .minfo)
    (hfits : s.txpay.length + 3 * groups.length ≤ s.maxpay) (hvalid : ∀ g ∈ groups, asmValid g.1 = true) :
    ∃ kind rsp, (kind = .empty ∨ kind = .minfo) ∧ runAll (groups.map fun g => .miadd g.1 g.2) s =
      .next { s.setPay (s.txpay ++ groupBytes groups) kind with rsp := rsp } := by
  induction groups generalizing s with
  | nil => exact ⟨s.txpk, s.rsp, hkind, by rw [groupBytes, List.flatMap_nil, List.append_nil]; rfl⟩
  | cons g groups ih =>
    obtain ⟨hg, hvalid⟩ := List.forall_mem_cons.mp hvalid
    rw [List.length_cons] at hfits
    have hexec := exec_miadd_of_room (id := g.1) (ref := g.2) hkind (by omega)
    rw [if_pos hg] at hexec
    have hfits' : (s.txpay ++ miGroup g.2 g.1).length + 3 * groups.length ≤ s.maxpay := by
      rw [List.length_append, miGroup_length]
      omega
    obtain ⟨kind, rsp, hk, hrun⟩ := ih (s := answered (s.setPay (s.txpay ++ miGroup g.2 g.1) .minfo) _) (.inr rfl) hfits' hvalid
    refine ⟨kind, rsp, hk, ?_⟩
    rw [List.map_cons, runAll_cons_of_next hexec, hrun, groupBytes_cons, ← List.append_assoc]
    rfl

/-! ### The obligations -/

/-- Settles O41: the run leaves the groups in TXPAY, under a kind that BLDRD frames. -/
theorem multiInfoReadBuildsAllGroups : Obligations.MultiInfoReadBuildsAllGroups := by
  intro s groups hinv hkind hfits hvalid
  have hempty : s.txpay = [] := by
    have hlen := hinv.kind
    rw [hkind] at hlen
    exact List.length_eq_zero_iff.mp hlen
  have hlen := groupBytes_length groups
  obtain ⟨kind, rsp, hk, hrun⟩ := runAll_miadds (.inl hkind) (by rw [hempty, List.length_nil]; omega)
    fun g hg => asmValid_iff.mpr (hvalid g hg)
  rw [hempty, List.nil_append] at hrun
  have hpay : (groupBytes groups).length ≤ s.maxpay := by omega
  obtain ⟨a1, b1, -, hbuild⟩ := build_answers 0x01#8 (s := { s.setPay (groupBytes groups) kind with rsp := rsp }) hpay
  rw [← exec_bldrd_of_kind hk] at hbuild
  rw [← hlen]
  exact ⟨_, _, hrun, hbuild, rfl, frame_length .., rfl⟩

/-- Settles O38: MIADD's checks in the order of R113. -/
theorem miaddAppendsGroup : Obligations.MiaddAppendsGroup := by
  refine ⟨fun id ref => ?_, fun s id ref hkind => ⟨exec_miadd_of_full hkind, fun hroom h15 h253 h254 => ?_, fun hroom hid => ?_⟩,
    fun s id ref hkind => exec_miadd_of_not_kind ?_, refusesWords_of_format (.miadd 0#8 0#16)⟩
  · rw [← encode_miadd, decodeReadsBackEncode]
  · have hid : ¬ asmValid id = true := by
      rw [asmValid_iff]
      omega
    rw [exec_miadd_of_room hkind hroom, if_neg hid]
    rfl
  · rw [exec_miadd_of_room hkind hroom, if_pos (asmValid_iff.mpr hid)]
    rfl
  · obtain h | h := hkind <;> simp [h]

/-- Settles O39: every command that needs another kind than PK_ABORT faults; TXCLR has no check, and id 0 is valid. -/
theorem abortLocksBuilderUntilTxclr : Obligations.AbortLocksBuilderUntilTxclr := by
  intro s t id ref hexec hfault
  obtain ⟨c, rfl⟩ := aborted_of_faultedWith hexec hfault
  obtain ⟨-, -, hvenc, -⟩ := vencEncodesValue
  refine ⟨rfl, rfl, rfl, fun id' ref' => exec_miadd_of_not_kind nofun, fun fmt v hfmt => hvenc _ fmt v hfmt nofun,
    exec_bldrd_of_not_kind nofun, exec_bldwr_of_not_kind nofun, _, rfl, rfl, fun hroom ref' => ?_⟩
  exact ⟨_, exec_miadd_of_room (.inl rfl) hroom, respond_succeeded _ _⟩

/-- Settles O40: ASMCLS has no check, and the class is a number above the id. -/
theorem asmclsClassifiesId : Obligations.AsmclsClassifiesId := by
  refine ⟨fun id => ?_, fun s id => ?_, refusesWords_of_format (.asmcls 0#8)⟩
  · rw [← encode_asmcls, decodeReadsBackEncode]
  · rw [← asmClass_code_toNat, ← asmWord_eq_ofNat]
    rfl

end Sys2Proof.Proofs

/-! The statements of 45_byte_stream.md. The six commands share two checks, on the context block and on a record, and what either
check lets pass or refuses is said once (`withContext_answers`, `withRecord_answers`, the three faults), in the bounds of the spec:
record i lies whole in a payload of at least 8 + 7·(i + 1) bytes (`lt_bsCount_iff`). That nothing but RAW and RXST is read (R125)
is a relation between the results in two states, with one rule per shared operation (`AnsweredAlike`). -/

namespace Sys2Proof.Proofs

open Sys2Proof Sys2Proof.Machine

/-! ### Words of the record commands -/

/-- The word of BSREF as R122 writes it. -/
theorem encode_bsref (i : Half) : encode (.bsref i) = 0x630000000000#48 ||| i.setWidth 48 :=
  encode_of_operand (op := 0x63#8) (by decide) rfl rfl (zext_half i).symm

/-- The word of BSAGG as R123 writes it. -/
theorem encode_bsagg (i : Half) : encode (.bsagg i) = 0x640000000000#48 ||| i.setWidth 48 :=
  encode_of_operand (op := 0x64#8) (by decide) rfl rfl (zext_half i).symm

/-- The word of BSVAL as R124 writes it. -/
theorem encode_bsval (i : Half) : encode (.bsval i) = 0x650000000000#48 ||| i.setWidth 48 :=
  encode_of_operand (op := 0x65#8) (by decide) rfl rfl (zext_half i).symm

/-! ### What the record commands read -/

theorem exec_bsref (i : Half) (s : State) : exec (.bsref i) s =
    withRecord s i fun start => orFault (le16 s.raw start) .outsideBuffer fun v => answer s (zext v) := rfl

theorem exec_bsagg (i : Half) (s : State) : exec (.bsagg i) s =
    withRecord s i fun start => orFault s.raw[start + 2]? .outsideBuffer fun id => answer s (asmWord id) := rfl

theorem exec_bsval (i : Half) (s : State) : exec (.bsval i) s =
    withRecord s i fun start => orFault (le32 s.raw (start + 3)) .outsideBuffer fun v => answer s v := rfl

/-! ### The shared checks -/

theorem bsCount_eq (n : Nat) : bsCount n = if n < 8 then 0 else (n - 8) / 7 := rfl

/-- A record counts when it lies whole behind the context block (R117, R118). -/
theorem lt_bsCount_iff {i n : Nat} : i < bsCount n ↔ 8 + 7 * (i + 1) ≤ n := by
  rw [bsCount_eq]
  split_ifs <;> omega

section
variable {s : State} {n : Nat} {i : Half}

theorem withPayload_of_holds {k : Nat → Result} (hpay : HoldsPayload s n) : withPayload s k = k n := by
  obtain ⟨hdone, hn⟩ := holdsPayload_iff.mp hpay
  exact withPayload_of hdone hn

/-- No whole frame is held: ERR_STATE, before anything is read of the payload. -/
theorem withPayload_of_not_done {k : Nat → Result} (h : s.rxst ≠ .done) : withPayload s k = .next (faulted s 5) :=
  requireFrame_of_not h

/-- No whole context block: ERR_SHORT. -/
theorem withContext_of_lt {k : Result} (hpay : HoldsPayload s n) (hn : n < 8) : withContext s k = .next (faulted s 7) := by
  rw [withContext, withPayload_of_holds hpay, require_of_not (c := Config.bsCtxLen ≤ n) (Nat.not_le.mpr hn), raise_eq_faulted]
  rfl

/-- What is read of a whole context block is the answer. -/
theorem withContext_answers {o : Option Word} {f : Fault} {v : Word} (hpay : HoldsPayload s n) (hn : 8 ≤ n)
    (hv : o = some v) : withContext s (orFault o f (answer s)) = .next (answered s v) := by
  rw [withContext, withPayload_of_holds hpay, require_of (c := Config.bsCtxLen ≤ n) hn, hv]
  rfl

/-- No whole record: ERR_SHORT. -/
theorem withRecord_of_lt {k : Nat → Result} (hpay : HoldsPayload s n) (hn : n < 8 + 7 * (i.toNat + 1)) :
    withRecord s i k = .next (faulted s 7) := by
  rw [withRecord, withPayload_of_holds hpay, require_of_not (by rw [lt_bsCount_iff]; omega), raise_eq_faulted]
  rfl

/-- What is read of a whole record is the answer. -/
theorem withRecord_answers {α : Type} {read : Nat → Option α} {f : Fault} {data : α → Word} {v : α} (hpay : HoldsPayload s n)
    (hn : 8 + 7 * (i.toNat + 1) ≤ n) (hv : read (32 + 7 * i.toNat) = some v) :
    withRecord s i (fun start => orFault (read start) f fun x => answer s (data x)) = .next (answered s (data v)) := by
  rw [withRecord, withPayload_of_holds hpay, require_of (lt_bsCount_iff.mpr hn)]
  exact congrArg (orFault · f fun x => answer s (data x)) hv

/-- BSCNT has no other check than that a frame is held. -/
theorem exec_bscnt_of_holds (hpay : HoldsPayload s n) : exec .bscnt s = .next (answered s (count (bsCount n))) :=
  withPayload_of_holds hpay

end

/-! ### Two states answered alike -/

/-- Two results have the same response, where both have one. -/
def AnsweredAlike (r r' : Result) : Prop := ∀ t t', r = .next t → r' = .next t' → t.rsp = t'.rsp

namespace AnsweredAlike

variable {s s' : State}

theorem answer (d : Word) : AnsweredAlike (answer s d) (answer s' d) := by
  rintro t t' ⟨⟩ ⟨⟩
  rfl

theorem raise (c : FaultCode) : AnsweredAlike (.next (s.raise c)) (.next (s'.raise c)) := by
  rintro t t' ⟨⟩ ⟨⟩
  rfl

theorem require {p p' : Prop} [Decidable p] [Decidable p'] {c : FaultCode} {k k' : Result} (hp : p ↔ p')
    (hk : AnsweredAlike k k') : AnsweredAlike (require s p c k) (require s' p' c k') := by
  by_cases h : p
  · rwa [require_of h, require_of (hp.mp h)]
  · rw [require_of_not h, require_of_not (mt hp.mpr h)]
    exact raise c

theorem orFault {α : Type} {o o' : Option α} {f : Fault} {k k' : α → Result} (ho : o = o')
    (hk : ∀ v, AnsweredAlike (k v) (k' v)) : AnsweredAlike (orFault o f k) (orFault o' f k') := by
  subst ho
  cases o with
  | none => rintro _ _ ⟨⟩
  | some v => exact hk v

theorem withPayload {k k' : Nat → Result} (hraw : s.raw = s'.raw) (hrxst : s.rxst = s'.rxst)
    (hk : ∀ n, AnsweredAlike (k n) (k' n)) : AnsweredAlike (withPayload s k) (withPayload s' k') :=
  require (by rw [hrxst]) (orFault (by rw [hraw]) hk)

theorem withContext {k k' : Result} (hraw : s.raw = s'.raw) (hrxst : s.rxst = s'.rxst) (hk : AnsweredAlike k k') :
    AnsweredAlike (withContext s k) (withContext s' k') :=
  withPayload hraw hrxst fun _ => require Iff.rfl hk

theorem withRecord {i : Half} {k k' : Nat → Result} (hraw : s.raw = s'.raw) (hrxst : s.rxst = s'.rxst)
    (hk : ∀ start, AnsweredAlike (k start) (k' start)) : AnsweredAlike (withRecord s i k) (withRecord s' i k') :=
  withPayload hraw hrxst fun _ => require Iff.rfl (hk _)

end AnsweredAlike

/-- Each of the six commands reads RAW where its rule says, and of the rest of the state RXST only (R125). -/
theorem exec_byteStream_alike {s s' : State} {i : Instr}
    (hi : i = .bsflg ∨ i = .bstime ∨ i = .bscnt ∨ ∃ n, i = .bsref n ∨ i = .bsagg n ∨ i = .bsval n)
    (hraw : s.raw = s'.raw) (hrxst : s.rxst = s'.rxst) : AnsweredAlike (exec i s) (exec i s') := by
  obtain rfl | rfl | rfl | ⟨n, rfl | rfl | rfl⟩ := hi
  · exact .withContext hraw hrxst (.orFault (by rw [hraw]) .answer)
  · exact .withContext hraw hrxst (.orFault (by rw [hraw]) .answer)
  · exact .withPayload hraw hrxst fun _ => .answer _
  · rw [exec_bsref, exec_bsref]
    exact .withRecord hraw hrxst fun _ => .orFault (by rw [hraw]) fun _ => .answer _
  · rw [exec_bsagg, exec_bsagg]
    exact .withRecord hraw hrxst fun _ => .orFault (by rw [hraw]) fun _ => .answer _
  · rw [exec_bsval, exec_bsval]
    exact .withRecord hraw hrxst fun _ => .orFault (by rw [hraw]) .answer

/-! ### RXDEC.byte_stream -/

/-- A successful RXDEC.byte_stream has counted the records of its payload (R100): an empty payload has none. -/
theorem rxdec_byteStream_succeeded {s t : State} {rd : Bool} (h : exec (.rxdec rd 5#4) s = .next t)
    (hsucceeded : Succeeded t) : ∃ n, HoldsPayload s n ∧ t.pval = count (bsCount n) := by
  obtain ⟨hdone, h⟩ := require_succeeded (p := s.rxst = .done) h hsucceeded
  obtain ⟨sflags, -, h⟩ := orFault_next h
  split at h
  · cases h
    exact absurd hsucceeded (raise_not_succeeded s _)
  obtain ⟨n, hn, h⟩ := orFault_next h
  refine ⟨n, holdsPayload_iff.mpr ⟨hdone, hn⟩, ?_⟩
  split at h
  case isTrue hzero =>
    subst hzero
    cases h
    rfl
  case isFalse =>
    cases h
    rfl

/-! ### The obligations -/

/-- Settles O42: the named bits lie in the two lowest bytes of the context word. -/
theorem bsflgReturnsContextWord : Obligations.BsflgReturnsContextWord := by
  refine ⟨decodeReadsBackEncode .bsflg, fun s n v => withContext_answers, fun s v c0 c1 h0 h1 hv => ?_,
    fun s n => withContext_of_lt, fun s => withPayload_of_not_done, refusesWords_of_format .bsflg⟩
  obtain ⟨b0, b1, b2, b3, hb0, hb1, -, -, rfl⟩ := le32_eq_some_iff.mp hv
  obtain rfl := Option.some.inj (hb0.symm.trans h0)
  obtain rfl := Option.some.inj (hb1.symm.trans h1)
  have hlow {k : Nat} (hk : k < 8) : (b3 ++ b2 ++ b1 ++ b0).getLsbD k = b0.getLsbD k :=
    BitVec.getLsbD_append.trans (if_pos hk)
  have hversion : (b3 ++ b2 ++ b1 ++ b0).extractLsb' 0 4 = b0.extractLsb' 0 4 := by
    rw [BitVec.extractLsb'_append_eq_of_add_le (by decide)]
  have hvs : (b3 ++ b2 ++ b1 ++ b0).getLsbD 8 = b1.getLsbD 0 :=
    BitVec.getLsbD_append.trans BitVec.getLsbD_append
  exact ⟨hversion, hlow (by decide), hlow (by decide), hlow (by decide), hlow (by decide), hvs⟩

/-- Settles O43: the timestamp is the second half of the context block. -/
theorem bstimeReturnsTimestamp : Obligations.BstimeReturnsTimestamp :=
  ⟨decodeReadsBackEncode .bstime, fun _ _ _ => withContext_answers, fun _ _ => withContext_of_lt,
    fun _ => withPayload_of_not_done, refusesWords_of_format .bstime⟩

/-- Settles O44: below 8 bytes the count is 0 and nothing faults. -/
theorem bscntCountsRecords : Obligations.BscntCountsRecords :=
  ⟨decodeReadsBackEncode .bscnt, fun _ _ => exec_bscnt_of_holds, fun _ => withPayload_of_not_done,
    refusesWords_of_format .bscnt⟩

/-- Settles O45: the reference stands at the start of the record. -/
theorem bsrefReturnsReference : Obligations.BsrefReturnsReference := by
  refine ⟨fun i => ?_, fun s n i v hpay hn hv => ?_, fun s n i hpay hn => ?_,
    fun s i => withPayload_of_not_done, refusesWords_of_format (.bsref 0#16)⟩
  · rw [← encode_bsref, decodeReadsBackEncode]
  · rw [← zext_half]
    exact withRecord_answers (read := le16 s.raw) hpay hn hv
  · rw [exec_bsref]
    exact withRecord_of_lt hpay hn

/-- Settles O46: the aggregation id stands behind the two bytes of the reference. -/
theorem bsaggReturnsClassifiedId : Obligations.BsaggReturnsClassifiedId := by
  refine ⟨fun i => ?_, fun s n i id hpay hn hid => ?_, fun s n i hpay hn => ?_,
    fun s i => withPayload_of_not_done, refusesWords_of_format (.bsagg 0#16)⟩
  · rw [← encode_bsagg, decodeReadsBackEncode]
  · rw [← asmClass_code_toNat, ← asmWord_eq_ofNat]
    exact withRecord_answers (read := fun start => s.raw[start + 2]?) hpay hn (by rwa [Nat.add_right_comm])
  · rw [exec_bsagg]
    exact withRecord_of_lt hpay hn

/-- Settles O47: the value stands behind the reference and the id. -/
theorem bsvalReturnsValue : Obligations.BsvalReturnsValue := by
  refine ⟨fun i => ?_, fun s n i v hpay hn hv => ?_, fun s n i hpay hn => ?_,
    fun s i => withPayload_of_not_done, refusesWords_of_format (.bsval 0#16)⟩
  · rw [← encode_bsval, decodeReadsBackEncode]
  · exact withRecord_answers (read := fun start => le32 s.raw (start + 3)) hpay hn (by rwa [Nat.add_right_comm])
  · rw [exec_bsval]
    exact withRecord_of_lt hpay hn

/-- Settles O48: both commands count the records of the one payload held. -/
theorem byteStreamReadsOnlyRawAndState : Obligations.ByteStreamReadsOnlyRawAndState := by
  refine ⟨fun s s' t t' i hi hraw hrxst => exec_byteStream_alike hi hraw hrxst t t', fun s t u rd hdec hsucceeded hcnt => ?_⟩
  obtain ⟨n, hpay, hpval⟩ := rxdec_byteStream_succeeded hdec hsucceeded
  rw [exec_bscnt_of_holds hpay] at hcnt
  cases hcnt
  rw [hpval]
  rfl

end Sys2Proof.Proofs

/-! The statements of 46_system.md. GET of a number that names a register answers what the register holds, or ERR_STATE for a frame
field with no frame held (`exec_get_of_register`, `exec_get_of_not_done`); SET of one of the five descriptor registers is one check
and one write (`exec_set_of_writable`), and what is written is what GET then reads (`readReg_writeReg_same`) until the register is
set again (`readReg_runAll`). A store changes the one buffer it names, which the command's own equation tells. -/

namespace Sys2Proof.Proofs

open Sys2Proof Sys2Proof.Machine

/-! ### Words of GET and SET -/

/-- A register number or-ed into `sub` (R57). -/
theorem cmdWord_or_number (op reg : BitVec 8) :
    cmdWord op 0#8 0#32 ||| (reg.setWidth 48 <<< 32) = cmdWord op reg 0#32 := by
  have hreg : reg.setWidth 48 <<< 32 = cmdWord 0#8 reg 0#32 := by
    revert reg
    decide
  rw [hreg, cmdWord_or, BitVec.or_zero, BitVec.zero_or, BitVec.or_zero]

/-- The word of GET as R129 writes it. -/
theorem encode_get (reg : BitVec 8) : encode (.get reg) = 0x020000000000#48 ||| (reg.setWidth 48 <<< 32) :=
  (cmdWord_or_number 0x02#8 reg).symm

/-- The word of SET as R130 writes it. -/
theorem encode_set (reg : BitVec 8) (v : Word) :
    encode (.set reg v) = 0x030000000000#48 ||| (reg.setWidth 48 <<< 32) ||| v.setWidth 48 :=
  calc encode (.set reg v)
    _ = cmdWord 0x03#8 reg v := rfl
    _ = cmdWord 0x03#8 reg 0#32 ||| v.setWidth 48 := by rw [cmdWord_or_operand (Nat.le_refl 32), BitVec.setWidth_eq]
    _ = 0x030000000000#48 ||| (reg.setWidth 48 <<< 32) ||| v.setWidth 48 :=
        congrArg (· ||| v.setWidth 48) (cmdWord_or_number 0x03#8 reg).symm

/-- Words whose fields the format of `i` refuses, or whose command is illegal by its operands (R64 (c)), fault with ERR_ILL. -/
theorem refusesWords_of_illegal (i : Instr) {allowed : BitVec 8 → Word → Prop}
    (h : ∀ sub imm s, (formatOf i).Allows sub imm → ¬ allowed sub imm →
      exec (withOperands i sub imm) s = .next (s.raise .ill)) : RefusesWords (opcode i) allowed := by
  intro s w rest hcmds hop hrefused
  refine step_of_illegal hcmds fun j hd => ?_
  obtain ⟨hallows, rfl⟩ := (decode_eq_ok_iff hop).mp hd
  exact h _ _ _ hallows hrefused

/-! ### Register numbers -/

theorem regOfNumber_number (r : Reg) : Reg.ofNumber r.number = some r := by
  cases r <;> decide

/-- A number in a column of R26 names a register of that column. -/
theorem exists_register_of_mem {p : Reg → Bool} {n : BitVec 8} (h : n ∈ (Reg.all.filter p).map Reg.number) :
    ∃ r, Reg.ofNumber n = some r ∧ p r = true := by
  obtain ⟨r, hr, rfl⟩ := List.mem_map.mp h
  exact ⟨r, regOfNumber_number r, (List.mem_filter.mp hr).2⟩

theorem exists_view_of_mem {n : BitVec 8} (h : n ∈ frameNumbers) : ∃ r, Reg.ofNumber n = some r ∧ r.isView = true :=
  exists_register_of_mem h

theorem exists_writable_of_mem {n : BitVec 8} (h : n ∈ writableNumbers) : ∃ r, Reg.ofNumber n = some r ∧ r.writable = true :=
  exists_register_of_mem h

theorem number_of_regOfNumber {n : BitVec 8} {r : Reg} (h : Reg.ofNumber n = some r) : r.number = n :=
  beq_iff_eq.mp (List.find?_some (p := fun q : Reg => q.number == n) h)

theorem not_view_of_writable {r : Reg} (h : r.writable = true) : r.isView = false := by
  cases r with
  | tsrc | tdst | totype | toid | tpid => rfl
  | _ => cases h

/-! ### GET -/

section
variable {s : State} {reg : BitVec 8} {r : Reg}

/-- GET of a register that is no frame field answers in every parser state (R129). -/
theorem exec_get_of_register {v : Word} (hreg : Reg.ofNumber reg = some r) (hview : r.isView = false)
    (hv : readReg r s = some v) : exec (.get reg) s = .next (answered s v) := by
  simp only [exec, execGet, hreg, require_of (c := _ ∨ _) (.inl hview), hv, orFault_some, answer_eq, respond_eq_answered]

/-- GET of a frame field with no whole frame held (R129). -/
theorem exec_get_of_not_done (hreg : Reg.ofNumber reg = some r) (hview : r.isView = true) (hdone : s.rxst ≠ .done) :
    exec (.get reg) s = .next (faulted s 5) := by
  have hcheck : ¬ (r.isView = false ∨ s.rxst = .done) := by simp [hview, hdone]
  simp only [exec, execGet, hreg, require_of_not (c := _ ∨ _) hcheck, raise_eq_faulted, FaultCode.number]

variable (hreg : Reg.ofNumber reg = some r) (hdone : s.rxst = .done)
include hreg hdone

/-! The kinds of frame field of R24, with the extensions of R26 and R27. -/

theorem exec_get_half {v : Half} (hr : readReg r s = some (zext v)) :
    exec (.get reg) s = .next (answered s (0#16 ++ v)) := by
  rw [← zext_half]
  exact exec_get_of_done hreg hdone hr

theorem exec_get_byteField {k : Nat} (hr : readReg r s = s.raw[k]?.map zext) (hk : k < s.raw.length) :
    ∃ b, s.raw[k]? = some b ∧ exec (.get reg) s = .next (answered s (0#24 ++ b)) := by
  have hb := List.getElem?_eq_getElem hk
  refine ⟨_, hb, ?_⟩
  rw [← zext_byte]
  exact exec_get_of_done hreg hdone (hr.trans (congrArg (Option.map zext) hb))

theorem exec_get_be16Field {k : Nat} (hr : readReg r s = (be16 s.raw k).map zext) (hk : k + 1 < s.raw.length) :
    ∃ v, be16 s.raw k = some v ∧ exec (.get reg) s = .next (answered s (0#16 ++ v)) := by
  obtain ⟨v, hv⟩ := be16_exists hk
  exact ⟨v, hv, exec_get_half hreg hdone (hr.trans (congrArg (Option.map zext) hv))⟩

theorem exec_get_signedField {k : Nat} (hr : readReg r s = (le16 s.raw k).map sext16) (hk : k + 1 < s.raw.length) :
    ∃ v, le16 s.raw k = some v ∧ exec (.get reg) s = .next (answered s (BitVec.ofInt 32 v.toInt)) := by
  obtain ⟨v, hv⟩ := le16_exists hk
  exact ⟨v, hv, exec_get_of_done hreg hdone (hr.trans (congrArg (Option.map sext16) hv))⟩

theorem exec_get_wordField {k : Nat} (hr : readReg r s = le32 s.raw k) (hk : k + 3 < s.raw.length) :
    ∃ v, le32 s.raw k = some v ∧ exec (.get reg) s = .next (answered s v) := by
  obtain ⟨v, hv⟩ := le32_exists hk
  exact ⟨v, hv, exec_get_of_done hreg hdone (hr.trans hv)⟩

end

/-! ### SET -/

/-- The values a descriptor register takes (R130). -/
def fitsReg (r : Reg) (v : Word) : Bool :=
  match r with
  | .totype | .tpid => fitsSigned16 v
  | _ => true

/-- A descriptor register written (R130); the other registers are read-only. -/
def writeReg (r : Reg) (v : Word) (s : State) : State :=
  match r with
  | .tsrc => { s with tsrc := v }
  | .tdst => { s with tdst := v }
  | .totype => { s with totype := low16 v }
  | .toid => { s with toid := v }
  | .tpid => { s with tpid := low16 v }
  | _ => s

section
variable {s t : State} {reg : BitVec 8} {r : Reg} {v : Word}

/-- SET of a descriptor register is one check and one write (R130). -/
theorem exec_set_of_writable (hreg : Reg.ofNumber reg = some r) (hr : r.writable = true) :
    exec (.set reg v) s = require s (fitsReg r v = true) .range (answer (writeReg r v s) 0#32) := by
  cases r with
  | tsrc | tdst | toid => simp only [exec, execSet, hreg]; exact (require_of rfl).symm
  | totype | tpid => simp only [exec, execSet, hreg]; rfl
  | _ => cases hr

theorem exec_set_of_fits (hreg : Reg.ofNumber reg = some r) (hr : r.writable = true) (hv : fitsReg r v = true) :
    exec (.set reg v) s = .next (answered (writeReg r v s) 0#32) := by
  rw [exec_set_of_writable hreg hr, require_of hv, answer_eq, respond_eq_answered]

theorem exec_set_of_not_fits (hreg : Reg.ofNumber reg = some r) (hr : r.writable = true) (hv : ¬ fitsReg r v = true) :
    exec (.set reg v) s = .next (faulted s 3) := by
  rw [exec_set_of_writable hreg hr, require_of_not hv, raise_eq_faulted]
  rfl

/-- The low halfword of a signed 16-bit number is the number again when it is sign-extended. -/
theorem readReg_writeReg_same (hr : r.writable = true) (hv : fitsReg r v = true) : readReg r (writeReg r v s) = some v := by
  cases r with
  | tsrc | tdst | toid => rfl
  | totype | tpid => exact congrArg some (sext16_low16 (fitsSigned16_iff.mp hv))
  | _ => cases hr

theorem readReg_writeReg_of_ne {r' : Reg} (hr : r.writable = true) (hne : r' ≠ r) :
    readReg r (writeReg r' v s) = readReg r s := by
  cases r with
  | tsrc | tdst | totype | toid | tpid =>
    cases r' with
    | tsrc | tdst | totype | toid | tpid => simp_all [readReg, writeReg]
    | _ => rfl
  | _ => cases hr

/-- A descriptor register is a function of the five elements of R18. -/
theorem readReg_of_descriptor_eq (hr : r.writable = true) (h : t.tsrc = s.tsrc ∧ t.tdst = s.tdst ∧ t.totype = s.totype ∧
    t.toid = s.toid ∧ t.tpid = s.tpid) : readReg r t = readReg r s := by
  obtain ⟨hsrc, hdst, hotype, hoid, hpid⟩ := h
  cases r with
  | tsrc | tdst | totype | toid | tpid => simp only [readReg, hsrc, hdst, hotype, hoid, hpid]
  | _ => cases hr

/-- A SET that answers wrote its register, or faulted. -/
theorem exec_set_next (hexec : exec (.set reg v) s = .next t) :
    (∃ r, Reg.ofNumber reg = some r ∧ r.writable = true ∧ fitsReg r v = true ∧ t = answered (writeReg r v s) 0#32) ∨
    (∃ c, t = s.raise c) := by
  by_cases hmem : reg ∈ writableNumbers
  · obtain ⟨r, hreg, hr⟩ := exists_writable_of_mem hmem
    rw [exec_set_of_writable hreg hr] at hexec
    obtain ⟨hv, hexec⟩ | ⟨-, rfl⟩ := require_next hexec
    · exact .inl ⟨r, hreg, hr, hv, (Host.Outcome.next.inj hexec).symm⟩
    · exact .inr ⟨_, rfl⟩
  · exact .inr ⟨_, Host.Outcome.next.inj (hexec.symm.trans (execSet_of_not_writable hmem v s))⟩

/-- A command that is neither SRST nor a SET of the register leaves it (R13, R130). -/
theorem readReg_exec {i : Instr} (hreg : Reg.ofNumber reg = some r) (hr : r.writable = true) (hsrst : i ≠ .srst)
    (hset : ∀ v, i ≠ .set reg v) (hexec : exec i s = .next t) : readReg r t = readReg r s := by
  by_cases hsome : ∃ reg' v', i = .set reg' v'
  · obtain ⟨reg', v', rfl⟩ := hsome
    obtain ⟨r', hreg', -, -, rfl⟩ | ⟨c, rfl⟩ := exec_set_next hexec
    · have hne : r' ≠ r := by
        rintro rfl
        obtain rfl : reg' = reg := (number_of_regOfNumber hreg').symm.trans (number_of_regOfNumber hreg)
        exact hset v' rfl
      calc readReg r (answered (writeReg r' v' s) 0#32)
        _ = readReg r (writeReg r' v' s) := readReg_of_descriptor_eq hr ⟨rfl, rfl, rfl, rfl, rfl⟩
        _ = readReg r s := readReg_writeReg_of_ne hr hne
    · exact readReg_of_descriptor_eq hr ⟨rfl, rfl, rfl, rfl, rfl⟩
  · obtain ⟨-, hdescriptor, -⟩ := onlyListedWritersChangeState s t i hexec hsrst
    exact readReg_of_descriptor_eq hr (hdescriptor fun reg' v' h => hsome ⟨reg', v', h⟩)

theorem readReg_runAll {is : List Instr} (hreg : Reg.ofNumber reg = some r) (hr : r.writable = true)
    (his : ∀ i ∈ is, i ≠ .srst ∧ ∀ v, i ≠ .set reg v) (hrun : runAll is s = .next t) : readReg r t = readReg r s := by
  induction is generalizing s with
  | nil =>
    cases hrun
    rfl
  | cons i is ih =>
    obtain ⟨⟨hsrst, hset⟩, his⟩ := List.forall_mem_cons.mp his
    obtain ⟨u, hexec, hrun⟩ := runAll_cons_next hrun
    exact (ih his hrun).trans (readReg_exec hreg hr hsrst hset hexec)

end

/-! ### Stores -/

section
variable {s t : State}

theorem bytesLe_getElem? {w n k : Nat} (v : BitVec w) (hk : k < n) : (bytesLe v n)[k]? = some (v.extractLsb' (8 * k) 8) := by
  rw [bytesLe, List.getElem?_map, List.getElem?_range hk, Option.map_some]

/-- RXB past its first check stores its byte, whether it then answers or faults with ERR_LEN (R94). -/
theorem rxb_stores {v : Byte} (hexec : exec (.rxb v) s = .next t) (hfault : ¬ FaultedWith t 5) :
    t.raw = s.raw ++ [v] ∧ t.txpay = s.txpay ∧ t.txbuf = s.txbuf := by
  obtain ⟨-, hexec⟩ | ⟨-, rfl⟩ := require_next hexec
  case inr => exact absurd rfl hfault
  obtain ⟨raw, hraw, hexec⟩ := orFault_next hexec
  obtain ⟨-, rfl⟩ := memAppend_eq_some_iff.mp hraw
  obtain ⟨st, -, hexec⟩ := orFault_next hexec
  split at hexec
  all_goals
    cases hexec
    exact ⟨rfl, rfl, rfl⟩

/-- A MIADD that succeeds stores its group (R113). -/
theorem miadd_succeeded {id : Byte} {ref : Half} (hexec : exec (.miadd id ref) s = .next t) (hsucceeded : Succeeded t) :
    t.txpay = s.txpay ++ miGroup ref id ∧ t.txbuf = s.txbuf ∧ t.raw = s.raw := by
  cases exec_effect hexec with
  | fault => exact absurd hsucceeded (raise_not_succeeded _ _)
  | success hu =>
    cases hu with
    | groupAppended => exact ⟨rfl, rfl, rfl⟩
    | nothing hi => cases hi
    | built hi => simp at hi

/-- The group behind the bytes of a buffer: the reference, then the id (R112). -/
theorem group_after (pay : Bytes) (ref : Half) (id : Byte) :
    le16 (pay ++ miGroup ref id) pay.length = some ref ∧ (pay ++ miGroup ref id)[pay.length + 2]? = some id := by
  constructor
  · exact le16_of_drop (g := [id]) List.drop_left
  · rw [List.getElem?_append_right (Nat.le_add_right _ _), Nat.add_sub_cancel_left]
    rfl

/-- A VENC that succeeds stores the low bytes of its value from index 0, and answers their number (R107). -/
theorem venc_stores {fmt : BitVec 4} {v : Word} (hexec : exec (.venc fmt v) s = .next t) (hsucceeded : Succeeded t) :
    ∃ c, (FormatTag.ofCode fmt).codec = some c ∧
      t = answered (s.setPay (bytesLe v c.width) .value) (BitVec.ofNat 32 c.width) := by
  obtain ⟨c, hc, hv, -, -⟩ := venc_succeeded hexec hsucceeded
  rw [exec_venc_of_codec hc, valueEncode_of_encodable hv, orRaise_ok] at hexec
  obtain ⟨-, hexec⟩ := require_succeeded hexec hsucceeded
  obtain ⟨pay, hpay, hexec⟩ := orFault_next hexec
  obtain ⟨-, rfl⟩ := memAppend_eq_some_iff.mp hpay
  rw [bytesLe_length] at hexec
  exact ⟨c, hc, (Host.Outcome.next.inj hexec).symm⟩

/-- The encode width as a function of the tag (R69). -/
theorem width_of_codec {fmt : BitVec 4} {c : Codec} (h : (FormatTag.ofCode fmt).codec = some c) :
    c.width = if fmt = 0#4 then 1 else if fmt = 1#4 then 2 else 4 := by
  obtain ⟨hbool, hshort, -⟩ := tag_of_codec h
  simp only [← hbool, ← hshort]
  cases c <;> rfl

/-- A build that succeeds empties TXPAY (R89) and leaves RAW. -/
theorem build_succeeded {i : Instr} {sid : Byte} (hi : i = .bldrd ∧ sid = 0x01#8 ∨ i = .bldwr ∧ sid = 0x02#8)
    (hexec : exec i s = .next t) (hsucceeded : Succeeded t) : t.txpay = [] ∧ t.raw = s.raw := by
  have hwrites : readsOnly i = false := by obtain ⟨rfl, -⟩ | ⟨rfl, -⟩ := hi <;> rfl
  cases exec_effect hexec with
  | fault => exact absurd hsucceeded (raise_not_succeeded _ _)
  | success hu =>
    cases hu with
    | built => exact ⟨rfl, rfl⟩
    | nothing hreads => cases hwrites.symm.trans hreads
    | _ => simp at hi

end

/-! ### The obligations -/

/-- Settles O12: a whole frame reaches past every field, and PLEN is the data size less the fixed part. -/
theorem getReadsFrameFields : Obligations.GetReadsFrameFields := by
  intro s hinv hdone
  have hparser := hinv.parser
  rw [hdone] at hparser
  obtain ⟨n, hn, hlen, -⟩ := parserState_done hparser
  obtain ⟨dlen, hdlen, hsize⟩ := payloadLength_eq_some_iff.mp hn
  have hplen : BitVec.ofNat 16 n = dlen - 10#16 := by bv_omega
  have hpos : n = dlen.toNat - 10 := by omega
  have hread : readReg .dck s = (be16 s.raw (24 + n)).map zext := by
    simp only [readReg, frameField, dataChecksum, hn]
  obtain ⟨sofb, hsofb, getSofb⟩ := exec_get_byteField (reg := 0x22#8) (r := .sofb) (k := 0) rfl hdone rfl (by omega)
  obtain ⟨fflags, hfflags, getFflags⟩ := exec_get_byteField (reg := 0x23#8) (r := .fflags) (k := 1) rfl hdone rfl (by omega)
  obtain ⟨src, hsrc, getSrc⟩ := exec_get_wordField (reg := 0x24#8) (r := .src) (k := 2) rfl hdone rfl (by omega)
  obtain ⟨dst, hdst, getDst⟩ := exec_get_wordField (reg := 0x25#8) (r := .dst) (k := 6) rfl hdone rfl (by omega)
  obtain ⟨hck, hhck, getHck⟩ := exec_get_be16Field (reg := 0x27#8) (r := .hck) (k := 12) rfl hdone rfl (by omega)
  obtain ⟨sflags, hsflags, getSflags⟩ := exec_get_byteField (reg := 0x28#8) (r := .sflags) (k := 14) rfl hdone rfl (by omega)
  obtain ⟨sid, hsid, getSid⟩ := exec_get_byteField (reg := 0x29#8) (r := .sid) (k := 15) rfl hdone rfl (by omega)
  obtain ⟨otype, hotype, getOtype⟩ := exec_get_signedField (reg := 0x2A#8) (r := .otype) (k := 16) rfl hdone rfl (by omega)
  obtain ⟨oid, hoid, getOid⟩ := exec_get_wordField (reg := 0x2B#8) (r := .oid) (k := 18) rfl hdone rfl (by omega)
  obtain ⟨pid, hpid, getPid⟩ := exec_get_signedField (reg := 0x2C#8) (r := .pid) (k := 22) rfl hdone rfl (by omega)
  obtain ⟨dck, hdck, getDck⟩ := exec_get_be16Field (reg := 0x2E#8) rfl hdone hread (by omega)
  have getDlen := exec_get_half (reg := 0x26#8) (r := .dlen) rfl hdone (congrArg (Option.map zext) hdlen)
  have getPlen := exec_get_half (reg := 0x2D#8) (r := .plen) rfl hdone
    (congrArg (Option.map fun n => zext (BitVec.ofNat 16 n)) hn)
  rw [hplen] at getPlen
  rw [hpos] at hdck
  exact ⟨sofb, fflags, sflags, sid, src, dst, oid, dlen, hck, otype, pid, dck, hsofb, getSofb, hfflags, getFflags, hsrc, getSrc,
    hdst, getDst, hdlen, getDlen, hhck, getHck, hsflags, getSflags, hsid, getSid, hotype, getOtype, hoid, getOid, hpid, getPid,
    getPlen, hdck, getDck⟩

/-- Settles O14: GET's two checks, and the words its format lets through. -/
theorem getFaultsWhereUndefined : Obligations.GetFaultsWhereUndefined := by
  refine ⟨fun reg => ?_, fun s reg hreg => execGet_of_unassigned hreg s, fun s reg hreg => ?_,
    refusesWords_of_illegal (.get 0#8) fun sub imm s himm hrefused => ?_⟩
  · rw [← encode_get, decodeReadsBackEncode]
  · obtain ⟨r, hr, hview⟩ := exists_view_of_mem hreg
    exact exec_get_of_not_done hr hview
  · exact execGet_of_unassigned (fun hsub => hrefused ⟨himm, hsub⟩) s

/-- Settles O15: the check of each descriptor register, its write, and the numbers of the others. -/
theorem setWritesDescriptor : Obligations.SetWritesDescriptor := by
  refine ⟨fun reg v => ?_, fun s v => ⟨?_, ?_, ?_, fun hv => ?_, fun hv => ?_⟩,
    fun s reg v hreg => execSet_of_not_writable hreg v s,
    refusesWords_of_illegal (.set 0#8 0#32) fun sub imm s _ hsub => execSet_of_not_writable hsub imm s⟩
  · rw [← encode_set, decodeReadsBackEncode]
  · exact exec_set_of_fits (r := .tsrc) rfl rfl rfl
  · exact exec_set_of_fits (r := .tdst) rfl rfl rfl
  · exact exec_set_of_fits (r := .toid) rfl rfl rfl
  · rw [← low16_eq_setWidth]
    have hfits := fitsSigned16_iff.mpr hv
    exact ⟨exec_set_of_fits (r := .totype) rfl rfl hfits, exec_set_of_fits (r := .tpid) rfl rfl hfits⟩
  · have hfits := mt fitsSigned16_iff.mp hv
    exact ⟨exec_set_of_not_fits (r := .totype) rfl rfl hfits, exec_set_of_not_fits (r := .tpid) rfl rfl hfits⟩

/-- Settles O16: the register holds the value after the SET, and the run leaves it. -/
theorem getAfterSetReturnsValue : Obligations.GetAfterSetReturnsValue := by
  intro s t u reg v is _ hexec hsucceeded his hrun
  obtain ⟨r, hreg, hr, hv, rfl⟩ | ⟨c, rfl⟩ := exec_set_next hexec
  · refine exec_get_of_register hreg (not_view_of_writable hr) ?_
    calc readReg r u
      _ = readReg r (answered (writeReg r v s) 0#32) := readReg_runAll hreg hr his hrun
      _ = readReg r (writeReg r v s) := readReg_of_descriptor_eq hr ⟨rfl, rfl, rfl, rfl, rfl⟩
      _ = some v := readReg_writeReg_same hr hv
  · exact absurd hsucceeded (raise_not_succeeded s c)

/-- Settles O60: RXB and MIADD append, VENC and the builds write their buffer whole. -/
theorem storesLeaveEarlierBytes : Obligations.StoresLeaveEarlierBytes := by
  refine fun s t => ⟨fun v hexec hfault => ?_, fun id ref hexec hsucceeded => ?_, fun fmt v hexec hsucceeded => ?_,
    fun i sid hi hexec hsucceeded => ?_⟩
  · obtain ⟨hraw, hpay, hbuf⟩ := rxb_stores hexec hfault
    rw [hraw]
    exact ⟨List.length_append, List.getElem?_concat_length, fun k => List.getElem?_append_left, hpay, hbuf⟩
  · obtain ⟨hpay, hbuf, hraw⟩ := miadd_succeeded hexec hsucceeded
    obtain ⟨href, hid⟩ := group_after s.txpay ref id
    rw [hpay]
    exact ⟨List.length_append, href, hid, fun k => List.getElem?_append_left, hbuf, hraw⟩
  · obtain ⟨c, hc, rfl⟩ := venc_stores hexec hsucceeded
    have hlen := bytesLe_length v c.width
    refine ⟨hlen.trans (width_of_codec hc), fun k hk => bytesLe_getElem? v (hk.trans_eq hlen), ?_, rfl, rfl⟩
    exact congrArg (fun n => some (Response.mk 0x00#8 (BitVec.ofNat 32 n))) hlen.symm
  · obtain ⟨-, -, hbuf⟩ := txbuf_of_built hi hexec hsucceeded
    obtain ⟨hpay, hraw⟩ := build_succeeded hi hexec hsucceeded
    exact ⟨hbuf, hbuf ▸ frame_length .., hpay, hraw⟩

/-- Settles O8: NOP has no operand and no check. -/
theorem nopChangesNothing : Obligations.NopChangesNothing :=
  ⟨decodeReadsBackEncode .nop, fun _ => rfl, refusesWords_of_format .nop⟩

/-- Settles O9: SRST has no check, and its next state is the table of R34. -/
theorem srstResetsEveryElement : Obligations.SrstResetsEveryElement :=
  ⟨decodeReadsBackEncode .srst, fun _ => rfl, refusesWords_of_format .srst⟩

/-- Settles O11: the fifteen registers that are no frame fields, each with its extension. -/
theorem getReadsRegisters : Obligations.GetReadsRegisters := by
  refine fun s => ⟨exec_get_of_register (r := .tsrc) rfl rfl rfl, exec_get_of_register (r := .tdst) rfl rfl rfl,
    exec_get_of_register (r := .totype) rfl rfl rfl, exec_get_of_register (r := .toid) rfl rfl rfl,
    exec_get_of_register (r := .tpid) rfl rfl rfl,
    fun hlen => exec_get_of_register (r := .txlen) rfl rfl (congrArg some (zext_ofNat_half hlen)),
    fun hlen => exec_get_of_register (r := .txplen) rfl rfl (congrArg some (zext_ofNat_half hlen)),
    exec_get_of_register (r := .txpk) rfl rfl (congrArg some ?_),
    exec_get_of_register (r := .csaA) rfl rfl (congrArg some (zext_byte s.a)),
    exec_get_of_register (r := .csaB) rfl rfl (congrArg some (zext_byte s.b)),
    exec_get_of_register (r := .rxst) rfl rfl (congrArg some ?_),
    fun hlen => exec_get_of_register (r := .rxpos) rfl rfl (congrArg some (zext_ofNat_half hlen)),
    exec_get_of_register (r := .pval) rfl rfl rfl, exec_get_of_register (r := .ptag) rfl rfl (congrArg some ?_),
    exec_get_of_register (r := .flt) rfl rfl (congrArg some (zext_half s.flt))⟩
  · cases s.txpk <;> rfl
  · cases s.rxst <;> rfl
  · cases s.ptag <;> rfl

end Sys2Proof.Proofs

/-! The statements of 60_exceptions.md. What a fault writes and which commands raise it is a case of `WrittenByFault`, so both claims
about faults are read off the cases of `exec_effect`. -/

namespace Sys2Proof.Proofs

open Sys2Proof Sys2Proof.Machine

/-! ### Faults -/

section
variable {s u : State} {i : Instr} {c : FaultCode}

/-- A command faults with a code of its row only (R137), the two faults that write state included. -/
theorem WrittenByFault.mem_possibleFaults (h : WrittenByFault s i c u) : c.number ∈ possibleFaults i := by
  cases h with
  | nothing hc => exact hc
  | sizeRefused => simp [possibleFaults, FaultCode.number]
  | aborted hc => obtain rfl | rfl := hc <;> simp [possibleFaults, FaultCode.number]

/-- A fault leaves all state but FLT and the response, with the two exceptions of R133. -/
theorem WrittenByFault.precise (h : WrittenByFault s i c u) :
    u.raise c = faulted s c.number ∨
    (∃ v, i = .rxb v ∧ c.number = 6 ∧ u.raise c = faulted { s with raw := s.raw ++ [v], rxst := .fault } 6) ∨
    (∃ id ref, i = .miadd id ref ∧ (c.number = 6 ∨ c.number = 8) ∧
      u.raise c = faulted { s with txpay := [], txpk := .abort } c.number) := by
  rw [raise_eq_faulted]
  cases h with
  | nothing => exact .inl rfl
  | sizeRefused => exact .inr (.inl ⟨_, rfl, rfl, rfl⟩)
  | aborted hc =>
    have hnumber : c.number = 6 ∨ c.number = 8 := hc.imp (congrArg FaultCode.number) (congrArg FaultCode.number)
    exact .inr (.inr ⟨_, _, rfl, hnumber, rfl⟩)

end

theorem faultedWith_raise (s : State) (c : FaultCode) : FaultedWith (s.raise c) c.number := rfl

/-! ### The obligations -/

/-- Settles O52: a success answers status 0x00, and what a fault writes is one of three cases. -/
theorem faultsArePrecise : Obligations.FaultsArePrecise := by
  intro s t i r hexec hrsp hstatus
  cases exec_effect hexec with
  | success =>
    obtain rfl := Option.some.inj hrsp
    exact absurd rfl hstatus
  | @fault _ c hu =>
    obtain ⟨h1, h9⟩ := fault_number_range c
    exact ⟨c.number, h1, h9, (Option.some.inj hrsp).symm, hu.precise⟩

/-- Settles O53: a command succeeds or faults with a code of its row. -/
theorem commandsRaiseOnlyListedFaults : Obligations.CommandsRaiseOnlyListedFaults := by
  intro s t i hexec
  cases exec_effect hexec with
  | success => exact .inl (respond_succeeded _ _)
  | fault hu => exact .inr ⟨_, hu.mem_possibleFaults, faultedWith_raise _ _⟩

/-- Settles O7: with no word to take, a step is `idle`. -/
theorem idleKeepsState : Obligations.IdleKeepsState := by
  intro s hcmds
  simp only [step, State.fetch, hcmds, idle]

end Sys2Proof.Proofs

/-! The statements of 70_reset_and_hazards.md. That every command answers (R154) is a rule per shared operation (`Answers`): where an
operation of the spec has a value under R33 only, the value is there, a whole frame being as long as its data size says
(`whole_frame`). That a decode reads neither the checksums nor the marker (R160) is a relation between the results with two
contents of RAW (`SameButRaw`), each reader reading within the bytes that agree (`SameBytes`). -/

namespace Sys2Proof.Proofs

open Sys2Proof Sys2Proof.Machine

/-! ### What is there in a state of the invariant -/

theorem getElem?_exists {f : Bytes} {k : Nat} (h : k < f.length) : ∃ b, f[k]? = some b :=
  ⟨_, List.getElem?_eq_getElem h⟩

theorem exists_map_eq_some {α β : Type} {o : Option α} (f : α → β) (h : ∃ v, o = some v) : ∃ w, o.map f = some w := by
  obtain ⟨v, rfl⟩ := h
  exact ⟨f v, rfl⟩

/-- In S_DONE RAW is a whole frame (R33 item 4). -/
theorem whole_frame {s : State} (h : Inv s) (hdone : s.rxst = .done) :
    ∃ n, payloadLength s.raw = some n ∧ s.raw.length = 26 + n := by
  obtain ⟨n, hn, hlen, -⟩ := parserState_done (hdone ▸ h.parser)
  exact ⟨n, hn, hlen⟩

/-- A whole frame reaches past every field (R24), and past both sections of its checksums (R25). -/
theorem frameField_exists {raw : Bytes} {n : Nat} {r : Reg} (hn : payloadLength raw = some n) (hlen : raw.length = 26 + n)
    (hview : r.isView = true) : ∃ v, frameField r raw = some v := by
  cases r with
  | sofb | fflags | sflags | sid => exact exists_map_eq_some zext (getElem?_exists (by omega))
  | src | dst | oid => exact le32_exists (by omega)
  | dlen => exact exists_map_eq_some zext (le16_exists (by omega))
  | otype | pid => exact exists_map_eq_some sext16 (le16_exists (by omega))
  | hck => exact exists_map_eq_some zext (be16_exists (by omega))
  | plen => exact exists_map_eq_some _ ⟨n, hn⟩
  | dck =>
    simp only [frameField, dataChecksum, hn]
    exact exists_map_eq_some zext (be16_exists (by omega))
  | rxflg =>
    obtain ⟨sofb, h0⟩ := getElem?_exists (f := raw) (k := 0) (by omega)
    obtain ⟨sflags, h14⟩ := getElem?_exists (f := raw) (k := 14) (by omega)
    obtain ⟨hck, hhck⟩ := be16_exists (f := raw) (k := 12) (by omega)
    obtain ⟨dck, hdck⟩ := be16_exists (f := raw) (k := 24 + n) (by omega)
    exact exists_map_eq_some zext ⟨_, rxFlags_eq_some hn h0 h14 hhck hdck⟩
  | _ => cases hview

theorem readReg_of_view {r : Reg} (s : State) (hview : r.isView = true) : readReg r s = frameField r s.raw := by
  cases r with
  | sofb | fflags | src | dst | dlen | hck | sflags | sid | otype | oid | pid | plen | dck | rxflg => rfl
  | _ => cases hview

theorem readReg_exists_of_not_view {r : Reg} (s : State) (hview : r.isView = false) : ∃ v, readReg r s = some v := by
  cases r with
  | sofb | fflags | src | dst | dlen | hck | sflags | sid | otype | oid | pid | plen | dck | rxflg => cases hview
  | _ => exact ⟨_, rfl⟩

/-- What GET's check lets through has a value (R26, R129). -/
theorem readReg_exists {s : State} {r : Reg} (h : Inv s) (hr : r.isView = false ∨ s.rxst = .done) :
    ∃ v, readReg r s = some v := by
  cases hview : r.isView with
  | false => exact readReg_exists_of_not_view s hview
  | true =>
    have hdone : s.rxst = .done := hr.resolve_left (by simp [hview])
    obtain ⟨n, hn, hlen⟩ := whole_frame h hdone
    rw [readReg_of_view s hview]
    exact frameField_exists hn hlen hview

/-- The widths of R98, one byte being bool's only. -/
theorem frameWidth_cases (dir : Direction) (c : Codec) (rd : Bool) :
    (c = .bool ∧ frameWidth dir c rd = 1) ∨ frameWidth dir c rd = 2 ∨ frameWidth dir c rd = 4 := by
  cases c with
  | bool => exact .inl ⟨rfl, rfl⟩
  | shortEnum => exact .inr (.inl rfl)
  | float => exact .inr (.inr rfl)
  | longEnum | int32 =>
    cases dir with
    | request => exact .inr (.inr rfl)
    | response => exact .inr (by cases rd <;> simp [frameWidth])

/-- Every codec decodes at the widths R98 selects for it (R108). -/
theorem valueDecode_exists {dir : Direction} {c : Codec} {rd : Bool} {bytes : Bytes}
    (hlen : bytes.length = frameWidth dir c rd) : ∃ r, valueDecode c bytes = some r := by
  obtain ⟨rfl, hw⟩ | hw | hw := frameWidth_cases dir c rd
  · match bytes, hlen.trans hw with
    | [b0], _ => exact ⟨_, rfl⟩
  · match bytes, hlen.trans hw with
    | [b0, b1], _ => exact ⟨_, (decode_two_bytes hw b0 b1).1⟩
  · match bytes, hlen.trans hw with
    | [b0, b1, b2, b3], _ => exact ⟨_, (decode_four_bytes hw b0 b1 b2 b3).1⟩

/-- A request is read at the encode width (R98, R105). -/
theorem frameWidth_request (c : Codec) (rd : Bool) : frameWidth .request c rd = c.width := by
  cases c <;> rfl

theorem recordAt_eq (i : Half) : recordAt i = 32 + 7 * i.toNat := rfl

/-! ### Every command answers -/

/-- The (rest of a) command with result `r` has a next state. -/
def Answers (r : Result) : Prop := ∃ t, r = .next t

namespace Answers

variable {s : State}

theorem answer (s : State) (d : Word) : Answers (answer s d) := ⟨_, rfl⟩

theorem raise (s : State) (c : FaultCode) : Answers (raiseFault s c) := ⟨_, rfl⟩

theorem require {p : Prop} [Decidable p] {c : FaultCode} {k : Result} (hk : p → Answers k) : Answers (require s p c k) := by
  by_cases h : p
  · rw [require_of h]
    exact hk h
  · rw [require_of_not h]
    exact ⟨_, rfl⟩

theorem orFault {α : Type} {o : Option α} {f : Fault} {k : α → Result} (ho : ∃ v, o = some v)
    (hk : ∀ v, o = some v → Answers (k v)) : Answers (orFault o f k) := by
  obtain ⟨v, rfl⟩ := ho
  exact hk v rfl

theorem orRaise {α : Type} {r : Except FaultCode α} {k : α → Result} (hk : ∀ v, r = .ok v → Answers (k v)) :
    Answers (orRaise s r k) := by
  cases r with
  | ok v => exact hk v rfl
  | error c => exact raise s c

theorem loadByte (s : State) (buf : Bytes) (i : Half) : Answers (loadByte s buf i) := by
  unfold Machine.loadByte
  split
  · exact answer ..
  · exact raise ..

theorem build {sid : Byte} (h : Inv s) : Answers (build sid s) := by
  obtain ⟨_, -, hbuild⟩ := build_of_le (sid := sid) h.lengths.1
  exact ⟨_, hbuild⟩

theorem withPayload {k : Nat → Result} (h : Inv s) (hk : ∀ n, s.raw.length = 26 + n → Answers (k n)) :
    Answers (withPayload s k) := by
  refine .require fun hdone => ?_
  obtain ⟨n, hn, hlen⟩ := whole_frame h hdone
  rw [hn]
  exact hk n hlen

theorem withContext {k : Result} (h : Inv s) (hk : 34 ≤ s.raw.length → Answers k) : Answers (withContext s k) :=
  .withPayload h fun n hlen => .require fun (hn : 8 ≤ n) => hk (by omega)

theorem withRecord {i : Half} {k : Nat → Result} (h : Inv s)
    (hk : ∀ start, start + 7 ≤ s.raw.length → Answers (k start)) : Answers (withRecord s i k) := by
  refine .withPayload h fun n hlen => .require fun hi => hk _ ?_
  have hfits := lt_bsCount_iff.mp hi
  rw [recordAt_eq]
  omega

end Answers

section
variable {s : State} (h : Inv s)
include h

theorem execGet_answers (reg : BitVec 8) : Answers (execGet reg s) := by
  unfold execGet
  split
  · exact .raise ..
  · exact .require fun hr => .orFault (readReg_exists h hr) fun v _ => .answer s v

theorem execRxb_answers (v : Byte) : Answers (execRxb v s) := by
  by_cases hopen : s.rxst ≠ .done ∧ s.rxst ≠ .fault
  · obtain ⟨t, hexec, -⟩ := exec_rxb_of_open h hopen v
    exact ⟨t, hexec⟩
  · exact ⟨_, require_of_not hopen⟩

theorem execRxdec_answers (rd : Bool) (fmt : BitVec 4) : Answers (execRxdec rd fmt s) := by
  refine .require fun _ => .require fun hdone => ?_
  obtain ⟨n, hn, hlen⟩ := whole_frame h hdone
  refine .orFault (getElem?_exists (by omega)) fun sflags _ => ?_
  split
  · exact .raise ..
  rw [hn, orFault_some]
  split
  · exact .answer ..
  split
  · exact .answer ..
  refine .require fun hw => .orFault ⟨_, memRead_of_le ?_⟩ fun bytes hbytes => .orFault ?_ fun r _ => .orRaise fun v _ =>
    .answer ..
  · rw [Config.payOff]
    omega
  · obtain ⟨hle, rfl⟩ := memRead_eq_some_iff.mp hbytes
    refine valueDecode_exists (List.length_take_of_le ?_)
    rw [List.length_drop]
    omega

theorem execRxerr_answers : Answers (execRxerr s) := by
  refine .require fun hdone => ?_
  obtain ⟨n, hn, hlen⟩ := whole_frame h hdone
  exact .orFault (getElem?_exists (by omega)) fun _ _ => .require fun _ => .orFault ⟨n, hn⟩ fun m _ => .require fun _ =>
    .orFault (be16_exists (by rw [Config.payOff]; omega)) fun _ _ => .answer ..

theorem execVenc_answers (fmt : BitVec 4) (v : Word) : Answers (execVenc fmt v s) := by
  unfold execVenc
  split
  · exact .raise ..
  · rename_i c _
    refine .require fun _ => .orRaise fun bytes hbytes => .orFault ⟨_, memAppend_of_le ?_⟩ fun _ _ => .answer ..
    have hwidth := codec_width_le c
    have hmax := h.config
    rw [valueEncode_length hbytes, List.length_nil]
    omega

end

theorem execSet_answers (reg : BitVec 8) (v : Word) (s : State) : Answers (execSet reg v s) := by
  unfold execSet
  split
  · exact .answer ..
  · exact .answer ..
  · exact .require fun _ => .answer ..
  · exact .answer ..
  · exact .require fun _ => .answer ..
  · exact .raise ..

theorem execVdec_answers (fmt : BitVec 4) (v : Word) (s : State) : Answers (execVdec fmt v s) := by
  unfold execVdec
  split
  · exact .raise ..
  · rename_i c _
    have hlen : (bytesLe v c.width).length = frameWidth .request c true := by rw [bytesLe_length, frameWidth_request]
    exact .require fun _ => .orFault (valueDecode_exists hlen) fun _ _ => .orRaise fun _ _ => .answer ..

theorem execMiadd_answers (id : Byte) (ref : Half) (s : State) : Answers (execMiadd id ref s) := by
  refine .require fun _ => ?_
  split
  · exact .raise ..
  · split
    · exact .answer ..
    · exact .raise ..

/-- Every command has a next state in every state of the invariant (R154). -/
theorem exec_answers {s : State} (h : Inv s) (i : Instr) : ∃ t, exec i s = .next t := by
  change Answers (exec i s)
  cases i with
  | nop | srst | csinit | csadd | csrd | txclr | rxrst | asmcls => exact .answer ..
  | get reg => exact execGet_answers h reg
  | set reg v => exact execSet_answers reg v s
  | bldrd | bldwr => exact .require fun _ => .build h
  | txraw | rxraw => exact .loadByte ..
  | rxb v => exact execRxb_answers h v
  | rxdec rd fmt => exact execRxdec_answers h rd fmt
  | rxerr => exact execRxerr_answers h
  | venc fmt v => exact execVenc_answers h fmt v
  | vdec fmt v => exact execVdec_answers fmt v s
  | miadd id ref => exact execMiadd_answers id ref s
  | bsflg | bstime => exact .withContext h fun hlen => .orFault (le32_exists (by rw [Config.payOff]; omega)) fun _ _ => .answer ..
  | bscnt => exact .withPayload h fun _ _ => .answer ..
  | bsref n =>
    rw [exec_bsref]
    exact .withRecord h fun start hlen => .orFault (le16_exists (by omega)) fun _ _ => .answer ..
  | bsagg n =>
    rw [exec_bsagg]
    exact .withRecord h fun start hlen => .orFault (getElem?_exists (by omega)) fun _ _ => .answer ..
  | bsval n =>
    rw [exec_bsval]
    exact .withRecord h fun start hlen => .orFault (le32_exists (by omega)) fun _ _ => .answer ..

/-! ### What every answer keeps -/

section
variable {s u t : State} {i : Instr} {c : FaultCode}

/-- No command writes the parameter or the host's words, SRST included (R32). -/
theorem Written.maxpay_cmds (h : Written s i u) : u.maxpay = s.maxpay ∧ u.cmds = s.cmds := by
  cases h <;> exact ⟨rfl, rfl⟩

theorem WrittenByFault.maxpay_cmds (h : WrittenByFault s i c u) : u.maxpay = s.maxpay ∧ u.cmds = s.cmds := by
  cases h <;> exact ⟨rfl, rfl⟩

theorem Effect.maxpay_cmds (h : Effect s i t) : t.maxpay = s.maxpay ∧ t.cmds = s.cmds := by
  cases h with
  | success hu => exact hu.maxpay_cmds
  | fault hu => exact hu.maxpay_cmds

end

/-- The status of a fault is one of the nine codes (R134). -/
theorem raise_faultedWith_range (s : State) (c : FaultCode) : ∃ k, 1 ≤ k ∧ k ≤ 9 ∧ FaultedWith (s.raise c) k := by
  obtain ⟨h1, h9⟩ := fault_number_range c
  exact ⟨c.number, h1, h9, faultedWith_raise s c⟩

theorem Effect.status {s t : State} {i : Instr} (h : Effect s i t) : Succeeded t ∨ ∃ k, 1 ≤ k ∧ k ≤ 9 ∧ FaultedWith t k := by
  cases h with
  | success => exact .inl (respond_succeeded _ _)
  | fault => exact .inr (raise_faultedWith_range _ _)

/-! ### Bytes that agree -/

/-- `f` and `g` have the same bytes at the addresses `lo` to `hi − 1`. -/
def SameBytes (f g : Bytes) (lo hi : Nat) : Prop := ∀ k, lo ≤ k → k < hi → g[k]? = f[k]?

namespace SameBytes

variable {f g : Bytes} {lo hi k : Nat} (h : SameBytes f g lo hi) (hlo : lo ≤ k)
include h hlo

theorem le16_eq (hhi : k + 1 < hi) : le16 g k = le16 f k := by
  rw [le16, le16, h k hlo (by omega), h (k + 1) (by omega) hhi]

theorem be16_eq (hhi : k + 1 < hi) : be16 g k = be16 f k := by
  rw [be16, be16, h k hlo (by omega), h (k + 1) (by omega) hhi]

theorem le32_eq (hhi : k + 3 < hi) : le32 g k = le32 f k := by
  rw [le32, le32, h k hlo (by omega), h (k + 1) (by omega) (by omega), h (k + 2) (by omega) (by omega),
    h (k + 3) (by omega) hhi]

theorem memRead_eq {w : Nat} (hlen : g.length = f.length) (hhi : k + w ≤ hi) : memRead g k w = memRead f k w := by
  have hbytes : (g.drop k).take w = (f.drop k).take w := by
    refine List.ext_getElem? fun j => ?_
    rw [List.getElem?_take, List.getElem?_take, List.getElem?_drop, List.getElem?_drop]
    split_ifs
    · exact h (k + j) (by omega) (by omega)
    · rfl
  rw [memRead, memRead, hlen, hbytes]

end SameBytes

/-- `g` has the data size, the service flags and the `n` payload bytes of `f`: all that the commands on a parsed frame read of
RAW (R97, R100, R101, R117). -/
structure SameContent (f g : Bytes) (n : Nat) : Prop where
  length : g.length = f.length
  size : SameBytes f g 10 12
  sflags : g[14]? = f[14]?
  payload : SameBytes f g 24 (24 + n)

theorem SameContent.payloadLength_eq {f g : Bytes} {n : Nat} (h : SameContent f g n) : payloadLength g = payloadLength f := by
  rw [payloadLength, payloadLength, h.size.le16_eq (by decide) (by decide)]

/-! ### Two contents of RAW -/

/-- Where `r` has a next state, `r'` has the same one, but with `raw'` in RAW: stronger than `AnsweredAlike`, since RXDEC also writes
PVAL and PTAG, and usable where the two contents of RAW agree in part only. -/
def SameButRaw (raw' : Bytes) (r r' : Result) : Prop := ∀ t, r = .next t → r' = .next { t with raw := raw' }

namespace SameButRaw

variable {s : State} {raw' : Bytes} {n : Nat}

theorem answer (s : State) (d : Word) : SameButRaw raw' (answer s d) (answer { s with raw := raw' } d) := by
  rintro t ⟨⟩
  rfl

theorem raise (s : State) (c : FaultCode) : SameButRaw raw' (raiseFault s c) (raiseFault { s with raw := raw' } c) := by
  rintro t ⟨⟩
  rfl

theorem require {p : Prop} [Decidable p] {c : FaultCode} {k k' : Result} (hk : p → SameButRaw raw' k k') :
    SameButRaw raw' (require s p c k) (require { s with raw := raw' } p c k') := by
  by_cases h : p
  · rw [require_of h, require_of h]
    exact hk h
  · rw [require_of_not h, require_of_not h]
    exact raise s c

theorem orFault {α : Type} {o o' : Option α} {f : Fault} {k k' : α → Result} (ho : o' = o)
    (hk : ∀ v, o = some v → SameButRaw raw' (k v) (k' v)) : SameButRaw raw' (orFault o f k) (orFault o' f k') := by
  subst ho
  cases o' with
  | none => rintro t ⟨⟩
  | some v => exact hk v rfl

theorem orRaise {α : Type} {r : Except FaultCode α} {k k' : α → Result} (hk : ∀ v, SameButRaw raw' (k v) (k' v)) :
    SameButRaw raw' (orRaise s r k) (orRaise { s with raw := raw' } r k') := by
  cases r with
  | ok v => exact hk v
  | error c => exact raise s c

section
variable (hn : payloadLength s.raw = some n) (h : SameContent s.raw raw' n)
include hn h

theorem orFault_payloadLength {f : Fault} {k k' : Nat → Result} (hk : SameButRaw raw' (k n) (k' n)) :
    SameButRaw raw' (Machine.orFault (payloadLength s.raw) f k) (Machine.orFault (payloadLength raw') f k') := by
  rw [h.payloadLength_eq, hn]
  exact hk

theorem withPayload {k k' : Nat → Result} (hk : SameButRaw raw' (k n) (k' n)) :
    SameButRaw raw' (withPayload s k) (withPayload { s with raw := raw' } k') :=
  .require fun _ => .orFault_payloadLength hn h hk

theorem withContext {k k' : Result} (hk : 8 ≤ n → SameButRaw raw' k k') :
    SameButRaw raw' (withContext s k) (withContext { s with raw := raw' } k') :=
  .withPayload hn h (.require hk)

theorem withRecord {i : Half} {k k' : Nat → Result}
    (hk : ∀ start, 24 ≤ start → start + 7 ≤ 24 + n → SameButRaw raw' (k start) (k' start)) :
    SameButRaw raw' (withRecord s i k) (withRecord { s with raw := raw' } i k') := by
  refine .withPayload hn h (.require fun hi => hk _ ?_ ?_)
  all_goals
    have hfits := lt_bsCount_iff.mp hi
    rw [recordAt_eq]
    omega

end

end SameButRaw

section
variable {s : State} {raw' : Bytes} {n : Nat} (hn : payloadLength s.raw = some n) (h : SameContent s.raw raw' n)
include hn h

/-- RXDEC reads the data size, the service flags and, at a width the payload holds, the payload (R100). -/
theorem execRxdec_sameButRaw (rd : Bool) (fmt : BitVec 4) :
    SameButRaw raw' (execRxdec rd fmt s) (execRxdec rd fmt { s with raw := raw' }) := by
  refine .require fun _ => .require fun _ => .orFault h.sflags fun sflags _ => ?_
  cases Direction.ofFlags sflags with
  | none => exact .raise s _
  | some dir =>
    refine .orFault_payloadLength hn h ?_
    by_cases hzero : n = 0
    · rw [if_pos hzero, if_pos hzero]
      exact .answer (s.setVal 0#32 .absent) _
    rw [if_neg hzero, if_neg hzero]
    cases (FormatTag.ofCode fmt).codec with
    | none => exact .answer (s.setVal _ .bstream) _
    | some c =>
      exact .require fun hw => .orFault (h.payload.memRead_eq (by decide) h.length (Nat.add_le_add_left hw 24)) fun _ _ =>
        .orFault rfl fun _ _ => .orRaise fun v => .answer (s.setVal v c.valTag) v

/-- RXERR reads the data size, the service flags and two bytes of the payload (R101). -/
theorem execRxerr_sameButRaw : SameButRaw raw' (execRxerr s) (execRxerr { s with raw := raw' }) :=
  .require fun _ => .orFault h.sflags fun _ _ => .require fun _ => .orFault_payloadLength hn h <| .require fun hlen =>
    .orFault (h.payload.be16_eq (by decide) (Nat.add_le_add_left hlen 24)) fun _ _ => .answer s _

/-- The byte-stream commands read the data size and the payload (R125). -/
theorem exec_byteStream_sameButRaw {i : Instr}
    (hi : i = .bsflg ∨ i = .bstime ∨ i = .bscnt ∨ ∃ m, i = .bsref m ∨ i = .bsagg m ∨ i = .bsval m) :
    SameButRaw raw' (exec i s) (exec i { s with raw := raw' }) := by
  obtain rfl | rfl | rfl | ⟨m, rfl | rfl | rfl⟩ := hi
  · exact .withContext hn h fun hlen => .orFault (h.payload.le32_eq (k := 24) (by decide) (by omega)) fun v _ => .answer s v
  · exact .withContext hn h fun hlen => .orFault (h.payload.le32_eq (k := 28) (by decide) (by omega)) fun v _ => .answer s v
  · exact .withPayload hn h (.answer s _)
  · rw [exec_bsref, exec_bsref]
    exact .withRecord hn h fun start hlo hhi => .orFault (h.payload.le16_eq hlo (by omega)) fun _ _ => .answer s _
  · rw [exec_bsagg, exec_bsagg]
    exact .withRecord hn h fun start hlo hhi => .orFault (h.payload (start + 2) (by omega) (by omega)) fun _ _ => .answer s _
  · rw [exec_bsval, exec_bsval]
    exact .withRecord hn h fun start hlo hhi => .orFault (h.payload.le32_eq (by omega) (by omega)) fun v _ => .answer s v

end

/-! ### The obligations -/

/-- Settles O51: a word that does not decode faults with ERR_ILL, and the command of one that does answers. -/
theorem everyWordHasDefinedResult : Obligations.EveryWordHasDefinedResult := by
  intro s w rest hinv hcmds
  rw [step_cons hcmds]
  cases decode w with
  | error e => exact ⟨_, rfl, rfl, rfl, .inr (raise_faultedWith_range _ .ill)⟩
  | ok i =>
    obtain ⟨t, hexec⟩ := exec_answers (inv_consume hinv rest) i
    have heffect := exec_effect hexec
    obtain ⟨hmax, hrest⟩ := heffect.maxpay_cmds
    exact ⟨t, hexec, hrest, hmax, heffect.status⟩

/-- Settles O58: none of the bytes that may differ is read, so the two next states differ in RAW only. -/
theorem decodeIgnoresChecksumsAndMarker : Obligations.DecodeIgnoresChecksumsAndMarker := by
  intro s n raw' i t t' _ hpay hlen hbytes hi hexec hexec'
  obtain ⟨-, hn⟩ := holdsPayload_iff.mp hpay
  have hcontent : SameContent s.raw raw' n :=
    { length := hlen
      size := fun k _ _ => hbytes k (by omega) (by omega) (by omega) (by omega) (by omega) (by omega)
      sflags := hbytes 14 (by decide) (by decide) (by decide) (by decide) (by decide) (by omega)
      payload := fun k _ _ => hbytes k (by omega) (by omega) (by omega) (by omega) (by omega) (by omega) }
  have hsame : SameButRaw raw' (exec i s) (exec i { s with raw := raw' }) := by
    obtain rfl | ⟨rd, fmt, rfl⟩ | hstream := hi
    · exact execRxerr_sameButRaw hn hcontent
    · exact execRxdec_sameButRaw hn hcontent rd fmt
    · exact exec_byteStream_sameButRaw hn hcontent hstream
  obtain rfl := Host.Outcome.next.inj (hexec'.symm.trans (hsame t hexec))
  exact ⟨rfl, rfl, rfl⟩

end Sys2Proof.Proofs
